-- ==== Sys2Proof/Word.lean ====
section
/-! DEFINITION. The machine's words: bytes, words and longwords (R50, 20_memory) and register numbers (R82,
30_encoding).  A "word" of the spec is 16 bits and is called `Half` here; `Word` is the 32-bit longword, the size
of every register (R10). -/

namespace Sys2Proof

/-- A byte, 8 bits (R50). -/
abbrev Byte := BitVec 8

/-- What the spec calls a word, 16 bits (R50); also one instruction code (R80). -/
abbrev Half := BitVec 16

/-- What the spec calls a longword, 32 bits (R50): registers and addresses. -/
abbrev Word := BitVec 32

/-- The number of a general register R0 to R15 (R82). -/
abbrev RegNum := BitVec 4

/-- The number of a floating-point register FR0 to FR15 (R82). -/
abbrev FRegNum := BitVec 4

end Sys2Proof
end

