-- ==== Sys2Proof/Syntax.lean ====
section
/-! DEFINITION. The instruction set as syntax: one constructor per row of spec/opcode_table.json, in the table's
order (R96, 30_encoding).  Operands stand in the assembler's order, source before destination (R93), and hold the
field as encoded: a displacement is the value before scaling (R95).  The field widths of R81 are the types, so
every value of `Instr` has an encoding; `WellFormed.lean` holds the checks that turn written numbers into fields. -/

namespace Sys2Proof

/-- An instruction of the SH-2E (172 constructors, R96). -/
inductive Instr where
  -- Data transfer (40_data_transfer)
  /-- `MOV #imm,Rn`, R105. -/
  | movImm (imm : BitVec 8) (n : RegNum)
  /-- `MOV.W @(disp,PC),Rn`, R106. -/
  | movWPcRel (disp : BitVec 8) (n : RegNum)
  /-- `MOV.L @(disp,PC),Rn`, R107. -/
  | movLPcRel (disp : BitVec 8) (n : RegNum)
  /-- `MOV Rm,Rn`, R108. -/
  | movReg (m : RegNum) (n : RegNum)
  /-- `MOV.B Rm,@Rn`, R109. -/
  | movBStore (m : RegNum) (n : RegNum)
  /-- `MOV.W Rm,@Rn`, R110. -/
  | movWStore (m : RegNum) (n : RegNum)
  /-- `MOV.L Rm,@Rn`, R111. -/
  | movLStore (m : RegNum) (n : RegNum)
  /-- `MOV.B @Rm,Rn`, R112. -/
  | movBLoad (m : RegNum) (n : RegNum)
  /-- `MOV.W @Rm,Rn`, R113. -/
  | movWLoad (m : RegNum) (n : RegNum)
  /-- `MOV.L @Rm,Rn`, R114. -/
  | movLLoad (m : RegNum) (n : RegNum)
  /-- `MOV.B Rm,@-Rn`, R115. -/
  | movBStoreDec (m : RegNum) (n : RegNum)
  /-- `MOV.W Rm,@-Rn`, R116. -/
  | movWStoreDec (m : RegNum) (n : RegNum)
  /-- `MOV.L Rm,@-Rn`, R117. -/
  | movLStoreDec (m : RegNum) (n : RegNum)
  /-- `MOV.B @Rm+,Rn`, R118. -/
  | movBLoadInc (m : RegNum) (n : RegNum)
  /-- `MOV.W @Rm+,Rn`, R119. -/
  | movWLoadInc (m : RegNum) (n : RegNum)
  /-- `MOV.L @Rm+,Rn`, R120. -/
  | movLLoadInc (m : RegNum) (n : RegNum)
  /-- `MOV.B R0,@(disp,Rn)`, R121. -/
  | movBStoreDisp (disp : BitVec 4) (n : RegNum)
  /-- `MOV.W R0,@(disp,Rn)`, R122. -/
  | movWStoreDisp (disp : BitVec 4) (n : RegNum)
  /-- `MOV.L Rm,@(disp,Rn)`, R123. -/
  | movLStoreDisp (m : RegNum) (disp : BitVec 4) (n : RegNum)
  /-- `MOV.B @(disp,Rm),R0`, R124. -/
  | movBLoadDisp (disp : BitVec 4) (m : RegNum)
  /-- `MOV.W @(disp,Rm),R0`, R125. -/
  | movWLoadDisp (disp : BitVec 4) (m : RegNum)
  /-- `MOV.L @(disp,Rm),Rn`, R126. -/
  | movLLoadDisp (disp : BitVec 4) (m : RegNum) (n : RegNum)
  /-- `MOV.B Rm,@(R0,Rn)`, R127. -/
  | movBStoreIdx (m : RegNum) (n : RegNum)
  /-- `MOV.W Rm,@(R0,Rn)`, R128. -/
  | movWStoreIdx (m : RegNum) (n : RegNum)
  /-- `MOV.L Rm,@(R0,Rn)`, R129. -/
  | movLStoreIdx (m : RegNum) (n : RegNum)
  /-- `MOV.B @(R0,Rm),Rn`, R130. -/
  | movBLoadIdx (m : RegNum) (n : RegNum)
  /-- `MOV.W @(R0,Rm),Rn`, R131. -/
  | movWLoadIdx (m : RegNum) (n : RegNum)
  /-- `MOV.L @(R0,Rm),Rn`, R132. -/
  | movLLoadIdx (m : RegNum) (n : RegNum)
  /-- `MOV.B R0,@(disp,GBR)`, R133. -/
  | movBStoreGbr (disp : BitVec 8)
  /-- `MOV.W R0,@(disp,GBR)`, R134. -/
  | movWStoreGbr (disp : BitVec 8)
  /-- `MOV.L R0,@(disp,GBR)`, R135. -/
  | movLStoreGbr (disp : BitVec 8)
  /-- `MOV.B @(disp,GBR),R0`, R136. -/
  | movBLoadGbr (disp : BitVec 8)
  /-- `MOV.W @(disp,GBR),R0`, R137. -/
  | movWLoadGbr (disp : BitVec 8)
  /-- `MOV.L @(disp,GBR),R0`, R138. -/
  | movLLoadGbr (disp : BitVec 8)
  /-- `MOVA @(disp,PC),R0`, R139. -/
  | mova (disp : BitVec 8)
  /-- `MOVT Rn`, R140. -/
  | movt (n : RegNum)
  /-- `SWAP.B Rm,Rn`, R141. -/
  | swapB (m : RegNum) (n : RegNum)
  /-- `SWAP.W Rm,Rn`, R142. -/
  | swapW (m : RegNum) (n : RegNum)
  /-- `XTRCT Rm,Rn`, R143. -/
  | xtrct (m : RegNum) (n : RegNum)
  -- Arithmetic (41_arithmetic)
  /-- `ADD Rm,Rn`, R155. -/
  | addReg (m : RegNum) (n : RegNum)
  /-- `ADD #imm,Rn`, R156. -/
  | addImm (imm : BitVec 8) (n : RegNum)
  /-- `ADDC Rm,Rn`, R157. -/
  | addc (m : RegNum) (n : RegNum)
  /-- `ADDV Rm,Rn`, R158. -/
  | addv (m : RegNum) (n : RegNum)
  /-- `CMP/EQ #imm,R0`, R159. -/
  | cmpEqImm (imm : BitVec 8)
  /-- `CMP/EQ Rm,Rn`, R160. -/
  | cmpEq (m : RegNum) (n : RegNum)
  /-- `CMP/HS Rm,Rn`, R161. -/
  | cmpHs (m : RegNum) (n : RegNum)
  /-- `CMP/GE Rm,Rn`, R162. -/
  | cmpGe (m : RegNum) (n : RegNum)
  /-- `CMP/HI Rm,Rn`, R163. -/
  | cmpHi (m : RegNum) (n : RegNum)
  /-- `CMP/GT Rm,Rn`, R164. -/
  | cmpGt (m : RegNum) (n : RegNum)
  /-- `CMP/PL Rn`, R165. -/
  | cmpPl (n : RegNum)
  /-- `CMP/PZ Rn`, R166. -/
  | cmpPz (n : RegNum)
  /-- `CMP/STR Rm,Rn`, R167. -/
  | cmpStr (m : RegNum) (n : RegNum)
  /-- `DIV1 Rm,Rn`, R168. -/
  | div1 (m : RegNum) (n : RegNum)
  /-- `DIV0S Rm,Rn`, R169. -/
  | div0s (m : RegNum) (n : RegNum)
  /-- `DIV0U`, R170. -/
  | div0u
  /-- `DMULS.L Rm,Rn`, R171. -/
  | dmulsL (m : RegNum) (n : RegNum)
  /-- `DMULU.L Rm,Rn`, R172. -/
  | dmuluL (m : RegNum) (n : RegNum)
  /-- `DT Rn`, R173. -/
  | dt (n : RegNum)
  /-- `EXTS.B Rm,Rn`, R174. -/
  | extsB (m : RegNum) (n : RegNum)
  /-- `EXTS.W Rm,Rn`, R175. -/
  | extsW (m : RegNum) (n : RegNum)
  /-- `EXTU.B Rm,Rn`, R176. -/
  | extuB (m : RegNum) (n : RegNum)
  /-- `EXTU.W Rm,Rn`, R177. -/
  | extuW (m : RegNum) (n : RegNum)
  /-- `MAC.L @Rm+,@Rn+`, R178. -/
  | macL (m : RegNum) (n : RegNum)
  /-- `MAC.W @Rm+,@Rn+`, R179. -/
  | macW (m : RegNum) (n : RegNum)
  /-- `MUL.L Rm,Rn`, R180. -/
  | mulL (m : RegNum) (n : RegNum)
  /-- `MULS.W Rm,Rn`, R181. -/
  | mulsW (m : RegNum) (n : RegNum)
  /-- `MULU.W Rm,Rn`, R182. -/
  | muluW (m : RegNum) (n : RegNum)
  /-- `NEG Rm,Rn`, R183. -/
  | neg (m : RegNum) (n : RegNum)
  /-- `NEGC Rm,Rn`, R184. -/
  | negc (m : RegNum) (n : RegNum)
  /-- `SUB Rm,Rn`, R185. -/
  | sub (m : RegNum) (n : RegNum)
  /-- `SUBC Rm,Rn`, R186. -/
  | subc (m : RegNum) (n : RegNum)
  /-- `SUBV Rm,Rn`, R187. -/
  | subv (m : RegNum) (n : RegNum)
  -- Logic (42_logic)
  /-- `AND Rm,Rn`, R202. -/
  | andReg (m : RegNum) (n : RegNum)
  /-- `AND #imm,R0`, R203. -/
  | andImm (imm : BitVec 8)
  /-- `AND.B #imm,@(R0,GBR)`, R204. -/
  | andB (imm : BitVec 8)
  /-- `NOT Rm,Rn`, R205. -/
  | not (m : RegNum) (n : RegNum)
  /-- `OR Rm,Rn`, R206. -/
  | orReg (m : RegNum) (n : RegNum)
  /-- `OR #imm,R0`, R207. -/
  | orImm (imm : BitVec 8)
  /-- `OR.B #imm,@(R0,GBR)`, R208. -/
  | orB (imm : BitVec 8)
  /-- `TAS.B @Rn`, R209. -/
  | tasB (n : RegNum)
  /-- `TST Rm,Rn`, R210. -/
  | tstReg (m : RegNum) (n : RegNum)
  /-- `TST #imm,R0`, R211. -/
  | tstImm (imm : BitVec 8)
  /-- `TST.B #imm,@(R0,GBR)`, R212. -/
  | tstB (imm : BitVec 8)
  /-- `XOR Rm,Rn`, R213. -/
  | xorReg (m : RegNum) (n : RegNum)
  /-- `XOR #imm,R0`, R214. -/
  | xorImm (imm : BitVec 8)
  /-- `XOR.B #imm,@(R0,GBR)`, R215. -/
  | xorB (imm : BitVec 8)
  -- Shift (43_shift)
  /-- `ROTL Rn`, R221. -/
  | rotl (n : RegNum)
  /-- `ROTR Rn`, R222. -/
  | rotr (n : RegNum)
  /-- `ROTCL Rn`, R223. -/
  | rotcl (n : RegNum)
  /-- `ROTCR Rn`, R224. -/
  | rotcr (n : RegNum)
  /-- `SHAL Rn`, R225. -/
  | shal (n : RegNum)
  /-- `SHAR Rn`, R226. -/
  | shar (n : RegNum)
  /-- `SHLL Rn`, R227. -/
  | shll (n : RegNum)
  /-- `SHLR Rn`, R228. -/
  | shlr (n : RegNum)
  /-- `SHLL2 Rn`, R229. -/
  | shll2 (n : RegNum)
  /-- `SHLR2 Rn`, R230. -/
  | shlr2 (n : RegNum)
  /-- `SHLL8 Rn`, R231. -/
  | shll8 (n : RegNum)
  /-- `SHLR8 Rn`, R232. -/
  | shlr8 (n : RegNum)
  /-- `SHLL16 Rn`, R233. -/
  | shll16 (n : RegNum)
  /-- `SHLR16 Rn`, R234. -/
  | shlr16 (n : RegNum)
  -- Branch (44_branch)
  /-- `BF label`, R250. -/
  | bf (disp : BitVec 8)
  /-- `BF/S label`, R251. -/
  | bfS (disp : BitVec 8)
  /-- `BT label`, R252. -/
  | bt (disp : BitVec 8)
  /-- `BT/S label`, R253. -/
  | btS (disp : BitVec 8)
  /-- `BRA label`, R254. -/
  | bra (disp : BitVec 12)
  /-- `BRAF Rm`, R255. -/
  | braf (m : RegNum)
  /-- `BSR label`, R256. -/
  | bsr (disp : BitVec 12)
  /-- `BSRF Rm`, R257. -/
  | bsrf (m : RegNum)
  /-- `JMP @Rm`, R258. -/
  | jmp (m : RegNum)
  /-- `JSR @Rm`, R259. -/
  | jsr (m : RegNum)
  /-- `RTS`, R260. -/
  | rts
  -- System control (45_system_control)
  /-- `CLRT`, R273. -/
  | clrt
  /-- `CLRMAC`, R274. -/
  | clrmac
  /-- `LDC Rm,SR`, R275. -/
  | ldcSr (m : RegNum)
  /-- `LDC Rm,GBR`, R276. -/
  | ldcGbr (m : RegNum)
  /-- `LDC Rm,VBR`, R277. -/
  | ldcVbr (m : RegNum)
  /-- `LDC.L @Rm+,SR`, R278. -/
  | ldcLSr (m : RegNum)
  /-- `LDC.L @Rm+,GBR`, R279. -/
  | ldcLGbr (m : RegNum)
  /-- `LDC.L @Rm+,VBR`, R280. -/
  | ldcLVbr (m : RegNum)
  /-- `LDS Rm,MACH`, R281. -/
  | ldsMach (m : RegNum)
  /-- `LDS Rm,MACL`, R282. -/
  | ldsMacl (m : RegNum)
  /-- `LDS Rm,PR`, R283. -/
  | ldsPr (m : RegNum)
  /-- `LDS.L @Rm+,MACH`, R284. -/
  | ldsLMach (m : RegNum)
  /-- `LDS.L @Rm+,MACL`, R285. -/
  | ldsLMacl (m : RegNum)
  /-- `LDS.L @Rm+,PR`, R286. -/
  | ldsLPr (m : RegNum)
  /-- `NOP`, R287. -/
  | nop
  /-- `RTE`, R288. -/
  | rte
  /-- `SETT`, R289. -/
  | sett
  /-- `SLEEP`, R290. -/
  | sleep
  /-- `STC SR,Rn`, R291. -/
  | stcSr (n : RegNum)
  /-- `STC GBR,Rn`, R292. -/
  | stcGbr (n : RegNum)
  /-- `STC VBR,Rn`, R293. -/
  | stcVbr (n : RegNum)
  /-- `STC.L SR,@-Rn`, R294. -/
  | stcLSr (n : RegNum)
  /-- `STC.L GBR,@-Rn`, R295. -/
  | stcLGbr (n : RegNum)
  /-- `STC.L VBR,@-Rn`, R296. -/
  | stcLVbr (n : RegNum)
  /-- `STS MACH,Rn`, R297. -/
  | stsMach (n : RegNum)
  /-- `STS MACL,Rn`, R298. -/
  | stsMacl (n : RegNum)
  /-- `STS PR,Rn`, R299. -/
  | stsPr (n : RegNum)
  /-- `STS.L MACH,@-Rn`, R300. -/
  | stsLMach (n : RegNum)
  /-- `STS.L MACL,@-Rn`, R301. -/
  | stsLMacl (n : RegNum)
  /-- `STS.L PR,@-Rn`, R302. -/
  | stsLPr (n : RegNum)
  /-- `TRAPA #imm`, R303. -/
  | trapa (imm : BitVec 8)
  -- Floating point (46_floating_point)
  /-- `FABS FRn`, R330. -/
  | fabs (n : FRegNum)
  /-- `FADD FRm,FRn`, R331. -/
  | fadd (m : FRegNum) (n : FRegNum)
  /-- `FCMP/EQ FRm,FRn`, R332. -/
  | fcmpEq (m : FRegNum) (n : FRegNum)
  /-- `FCMP/GT FRm,FRn`, R333. -/
  | fcmpGt (m : FRegNum) (n : FRegNum)
  /-- `FDIV FRm,FRn`, R334. -/
  | fdiv (m : FRegNum) (n : FRegNum)
  /-- `FLDI0 FRn`, R335. -/
  | fldi0 (n : FRegNum)
  /-- `FLDI1 FRn`, R336. -/
  | fldi1 (n : FRegNum)
  /-- `FLDS FRm,FPUL`, R337. -/
  | flds (m : FRegNum)
  /-- `FLOAT FPUL,FRn`, R338. -/
  | float (n : FRegNum)
  /-- `FMAC FR0,FRm,FRn`, R339. -/
  | fmac (m : FRegNum) (n : FRegNum)
  /-- `FMOV FRm,FRn`, R340. -/
  | fmov (m : FRegNum) (n : FRegNum)
  /-- `FMOV.S @(R0,Rm),FRn`, R341. -/
  | fmovLoadIdx (m : RegNum) (n : FRegNum)
  /-- `FMOV.S @Rm+,FRn`, R342. -/
  | fmovLoadInc (m : RegNum) (n : FRegNum)
  /-- `FMOV.S @Rm,FRn`, R343. -/
  | fmovLoad (m : RegNum) (n : FRegNum)
  /-- `FMOV.S FRm,@(R0,Rn)`, R344. -/
  | fmovStoreIdx (m : FRegNum) (n : RegNum)
  /-- `FMOV.S FRm,@-Rn`, R345. -/
  | fmovStoreDec (m : FRegNum) (n : RegNum)
  /-- `FMOV.S FRm,@Rn`, R346. -/
  | fmovStore (m : FRegNum) (n : RegNum)
  /-- `FMUL FRm,FRn`, R347. -/
  | fmul (m : FRegNum) (n : FRegNum)
  /-- `FNEG FRn`, R348. -/
  | fneg (n : FRegNum)
  /-- `FSTS FPUL,FRn`, R349. -/
  | fsts (n : FRegNum)
  /-- `FSUB FRm,FRn`, R350. -/
  | fsub (m : FRegNum) (n : FRegNum)
  /-- `FTRC FRm,FPUL`, R351. -/
  | ftrc (m : FRegNum)
  -- FPU-related CPU instructions (47_fpu_cpu)
  /-- `LDS Rm,FPSCR`, R361. -/
  | ldsFpscr (m : RegNum)
  /-- `LDS Rm,FPUL`, R362. -/
  | ldsFpul (m : RegNum)
  /-- `LDS.L @Rm+,FPSCR`, R363. -/
  | ldsLFpscr (m : RegNum)
  /-- `LDS.L @Rm+,FPUL`, R364. -/
  | ldsLFpul (m : RegNum)
  /-- `STS FPSCR,Rn`, R365. -/
  | stsFpscr (n : RegNum)
  /-- `STS FPUL,Rn`, R366. -/
  | stsFpul (n : RegNum)
  /-- `STS.L FPSCR,@-Rn`, R367. -/
  | stsLFpscr (n : RegNum)
  /-- `STS.L FPUL,@-Rn`, R368. -/
  | stsLFpul (n : RegNum)
  deriving DecidableEq, Repr

end Sys2Proof
end

