-- ==== Sys2Proof/Decode.lean ====
section
/-! DEFINITION. Decoding and encoding (30_encoding): `decode` is total on 16-bit codes and answers by name for a
code that matches no row of the opcode table (R89, R90); `encode` writes the code of an instruction from the same
formats (R81).  The functions below follow the operation code map of R89: first bits 15-12, then the low nibble
or bits 11-8, then bits 7-4 (R88). -/

namespace Sys2Proof

/-- Why bytes are no instruction.  Neither case is an effect of the machine: `Machine/Boundary.lean` turns
`unassigned` into the illegal instruction exceptions of R90. -/
inductive DecodeError where
  /-- The code matches no row of the opcode table (R90). -/
  | unassigned (code : Half)
  /-- Fewer than the two bytes of an instruction (R80). -/
  | truncated
  deriving DecidableEq, Repr

/-! ### Decoding, one function per value of bits 15-12

`n`, `m`, `d` are bits 11-8, 7-4 and 3-0. -/

/-- Codes with bits 15-12 = 0000 (R88, R89). -/
def decode0 (n m d : BitVec 4) : Option Instr :=
  match d with
  | 0x2#4 =>
    match m with
    | 0x0#4 => some (.stcSr n)
    | 0x1#4 => some (.stcGbr n)
    | 0x2#4 => some (.stcVbr n)
    | _ => none
  | 0x3#4 =>
    match m with
    | 0x0#4 => some (.bsrf n)
    | 0x2#4 => some (.braf n)
    | _ => none
  | 0x4#4 => some (.movBStoreIdx m n)
  | 0x5#4 => some (.movWStoreIdx m n)
  | 0x6#4 => some (.movLStoreIdx m n)
  | 0x7#4 => some (.mulL m n)
  | 0x8#4 =>
    match m with
    | 0x0#4 => if n = 0x0#4 then some .clrt else none
    | 0x1#4 => if n = 0x0#4 then some .sett else none
    | 0x2#4 => if n = 0x0#4 then some .clrmac else none
    | _ => none
  | 0x9#4 =>
    match m with
    | 0x0#4 => if n = 0x0#4 then some .nop else none
    | 0x1#4 => if n = 0x0#4 then some .div0u else none
    | 0x2#4 => some (.movt n)
    | _ => none
  | 0xA#4 =>
    match m with
    | 0x0#4 => some (.stsMach n)
    | 0x1#4 => some (.stsMacl n)
    | 0x2#4 => some (.stsPr n)
    | 0x5#4 => some (.stsFpul n)
    | 0x6#4 => some (.stsFpscr n)
    | _ => none
  | 0xB#4 =>
    match m with
    | 0x0#4 => if n = 0x0#4 then some .rts else none
    | 0x1#4 => if n = 0x0#4 then some .sleep else none
    | 0x2#4 => if n = 0x0#4 then some .rte else none
    | _ => none
  | 0xC#4 => some (.movBLoadIdx m n)
  | 0xD#4 => some (.movWLoadIdx m n)
  | 0xE#4 => some (.movLLoadIdx m n)
  | 0xF#4 => some (.macL m n)
  | _ => none

/-- Codes with bits 15-12 = 0010 (R88, R89). -/
def decode2 (n m d : BitVec 4) : Option Instr :=
  match d with
  | 0x0#4 => some (.movBStore m n)
  | 0x1#4 => some (.movWStore m n)
  | 0x2#4 => some (.movLStore m n)
  | 0x4#4 => some (.movBStoreDec m n)
  | 0x5#4 => some (.movWStoreDec m n)
  | 0x6#4 => some (.movLStoreDec m n)
  | 0x7#4 => some (.div0s m n)
  | 0x8#4 => some (.tstReg m n)
  | 0x9#4 => some (.andReg m n)
  | 0xA#4 => some (.xorReg m n)
  | 0xB#4 => some (.orReg m n)
  | 0xC#4 => some (.cmpStr m n)
  | 0xD#4 => some (.xtrct m n)
  | 0xE#4 => some (.muluW m n)
  | 0xF#4 => some (.mulsW m n)
  | _ => none

/-- Codes with bits 15-12 = 0011 (R88, R89). -/
def decode3 (n m d : BitVec 4) : Option Instr :=
  match d with
  | 0x0#4 => some (.cmpEq m n)
  | 0x2#4 => some (.cmpHs m n)
  | 0x3#4 => some (.cmpGe m n)
  | 0x4#4 => some (.div1 m n)
  | 0x5#4 => some (.dmuluL m n)
  | 0x6#4 => some (.cmpHi m n)
  | 0x7#4 => some (.cmpGt m n)
  | 0x8#4 => some (.sub m n)
  | 0xA#4 => some (.subc m n)
  | 0xB#4 => some (.subv m n)
  | 0xC#4 => some (.addReg m n)
  | 0xD#4 => some (.dmulsL m n)
  | 0xE#4 => some (.addc m n)
  | 0xF#4 => some (.addv m n)
  | _ => none

/-- Codes with bits 15-12 = 0100 (R88, R89). -/
def decode4 (n m d : BitVec 4) : Option Instr :=
  match d with
  | 0x0#4 =>
    match m with
    | 0x0#4 => some (.shll n)
    | 0x1#4 => some (.dt n)
    | 0x2#4 => some (.shal n)
    | _ => none
  | 0x1#4 =>
    match m with
    | 0x0#4 => some (.shlr n)
    | 0x1#4 => some (.cmpPz n)
    | 0x2#4 => some (.shar n)
    | _ => none
  | 0x2#4 =>
    match m with
    | 0x0#4 => some (.stsLMach n)
    | 0x1#4 => some (.stsLMacl n)
    | 0x2#4 => some (.stsLPr n)
    | 0x5#4 => some (.stsLFpul n)
    | 0x6#4 => some (.stsLFpscr n)
    | _ => none
  | 0x3#4 =>
    match m with
    | 0x0#4 => some (.stcLSr n)
    | 0x1#4 => some (.stcLGbr n)
    | 0x2#4 => some (.stcLVbr n)
    | _ => none
  | 0x4#4 =>
    match m with
    | 0x0#4 => some (.rotl n)
    | 0x2#4 => some (.rotcl n)
    | _ => none
  | 0x5#4 =>
    match m with
    | 0x0#4 => some (.rotr n)
    | 0x1#4 => some (.cmpPl n)
    | 0x2#4 => some (.rotcr n)
    | _ => none
  | 0x6#4 =>
    match m with
    | 0x0#4 => some (.ldsLMach n)
    | 0x1#4 => some (.ldsLMacl n)
    | 0x2#4 => some (.ldsLPr n)
    | 0x5#4 => some (.ldsLFpul n)
    | 0x6#4 => some (.ldsLFpscr n)
    | _ => none
  | 0x7#4 =>
    match m with
    | 0x0#4 => some (.ldcLSr n)
    | 0x1#4 => some (.ldcLGbr n)
    | 0x2#4 => some (.ldcLVbr n)
    | _ => none
  | 0x8#4 =>
    match m with
    | 0x0#4 => some (.shll2 n)
    | 0x1#4 => some (.shll8 n)
    | 0x2#4 => some (.shll16 n)
    | _ => none
  | 0x9#4 =>
    match m with
    | 0x0#4 => some (.shlr2 n)
    | 0x1#4 => some (.shlr8 n)
    | 0x2#4 => some (.shlr16 n)
    | _ => none
  | 0xA#4 =>
    match m with
    | 0x0#4 => some (.ldsMach n)
    | 0x1#4 => some (.ldsMacl n)
    | 0x2#4 => some (.ldsPr n)
    | 0x5#4 => some (.ldsFpul n)
    | 0x6#4 => some (.ldsFpscr n)
    | _ => none
  | 0xB#4 =>
    match m with
    | 0x0#4 => some (.jsr n)
    | 0x1#4 => some (.tasB n)
    | 0x2#4 => some (.jmp n)
    | _ => none
  | 0xE#4 =>
    match m with
    | 0x0#4 => some (.ldcSr n)
    | 0x1#4 => some (.ldcGbr n)
    | 0x2#4 => some (.ldcVbr n)
    | _ => none
  | 0xF#4 => some (.macW m n)
  | _ => none

/-- Codes with bits 15-12 = 0110 (R88, R89). -/
def decode6 (n m d : BitVec 4) : Option Instr :=
  match d with
  | 0x0#4 => some (.movBLoad m n)
  | 0x1#4 => some (.movWLoad m n)
  | 0x2#4 => some (.movLLoad m n)
  | 0x3#4 => some (.movReg m n)
  | 0x4#4 => some (.movBLoadInc m n)
  | 0x5#4 => some (.movWLoadInc m n)
  | 0x6#4 => some (.movLLoadInc m n)
  | 0x7#4 => some (.not m n)
  | 0x8#4 => some (.swapB m n)
  | 0x9#4 => some (.swapW m n)
  | 0xA#4 => some (.negc m n)
  | 0xB#4 => some (.neg m n)
  | 0xC#4 => some (.extuB m n)
  | 0xD#4 => some (.extuW m n)
  | 0xE#4 => some (.extsB m n)
  | 0xF#4 => some (.extsW m n)
  | _ => none

/-- Codes with bits 15-12 = 1000 (R89): bits 11-8 select. -/
def decode8 (n m d : BitVec 4) : Option Instr :=
  match n with
  | 0x0#4 => some (.movBStoreDisp d m)
  | 0x1#4 => some (.movWStoreDisp d m)
  | 0x4#4 => some (.movBLoadDisp d m)
  | 0x5#4 => some (.movWLoadDisp d m)
  | 0x8#4 => some (.cmpEqImm (m ++ d))
  | 0x9#4 => some (.bt (m ++ d))
  | 0xB#4 => some (.bf (m ++ d))
  | 0xD#4 => some (.btS (m ++ d))
  | 0xF#4 => some (.bfS (m ++ d))
  | _ => none

/-- Codes with bits 15-12 = 1100 (R89): bits 11-8 select. -/
def decodeC (n m d : BitVec 4) : Option Instr :=
  match n with
  | 0x0#4 => some (.movBStoreGbr (m ++ d))
  | 0x1#4 => some (.movWStoreGbr (m ++ d))
  | 0x2#4 => some (.movLStoreGbr (m ++ d))
  | 0x3#4 => some (.trapa (m ++ d))
  | 0x4#4 => some (.movBLoadGbr (m ++ d))
  | 0x5#4 => some (.movWLoadGbr (m ++ d))
  | 0x6#4 => some (.movLLoadGbr (m ++ d))
  | 0x7#4 => some (.mova (m ++ d))
  | 0x8#4 => some (.tstImm (m ++ d))
  | 0x9#4 => some (.andImm (m ++ d))
  | 0xA#4 => some (.xorImm (m ++ d))
  | 0xB#4 => some (.orImm (m ++ d))
  | 0xC#4 => some (.tstB (m ++ d))
  | 0xD#4 => some (.andB (m ++ d))
  | 0xE#4 => some (.xorB (m ++ d))
  | _ => some (.orB (m ++ d))

/-- Codes with bits 15-12 = 1111 (R88, R89). -/
def decodeF (n m d : BitVec 4) : Option Instr :=
  match d with
  | 0x0#4 => some (.fadd m n)
  | 0x1#4 => some (.fsub m n)
  | 0x2#4 => some (.fmul m n)
  | 0x3#4 => some (.fdiv m n)
  | 0x4#4 => some (.fcmpEq m n)
  | 0x5#4 => some (.fcmpGt m n)
  | 0x6#4 => some (.fmovLoadIdx m n)
  | 0x7#4 => some (.fmovStoreIdx m n)
  | 0x8#4 => some (.fmovLoad m n)
  | 0x9#4 => some (.fmovLoadInc m n)
  | 0xA#4 => some (.fmovStore m n)
  | 0xB#4 => some (.fmovStoreDec m n)
  | 0xC#4 => some (.fmov m n)
  | 0xD#4 =>
    match m with
    | 0x0#4 => some (.fsts n)
    | 0x1#4 => some (.flds n)
    | 0x2#4 => some (.float n)
    | 0x3#4 => some (.ftrc n)
    | 0x4#4 => some (.fneg n)
    | 0x5#4 => some (.fabs n)
    | 0x8#4 => some (.fldi0 n)
    | 0x9#4 => some (.fldi1 n)
    | _ => none
  | 0xE#4 => some (.fmac m n)
  | _ => none

/-- The instruction with the four nibbles `a n m d`, most significant first (R89). -/
def decodeNibbles (a n m d : BitVec 4) : Option Instr :=
  match a with
  | 0x0#4 => decode0 n m d
  | 0x1#4 => some (.movLStoreDisp m d n)
  | 0x2#4 => decode2 n m d
  | 0x3#4 => decode3 n m d
  | 0x4#4 => decode4 n m d
  | 0x5#4 => some (.movLLoadDisp d m n)
  | 0x6#4 => decode6 n m d
  | 0x7#4 => some (.addImm (m ++ d) n)
  | 0x8#4 => decode8 n m d
  | 0x9#4 => some (.movWPcRel (m ++ d) n)
  | 0xA#4 => some (.bra (n ++ m ++ d))
  | 0xB#4 => some (.bsr (n ++ m ++ d))
  | 0xC#4 => decodeC n m d
  | 0xD#4 => some (.movLPcRel (m ++ d) n)
  | 0xE#4 => some (.movImm (m ++ d) n)
  | _ => decodeF n m d

/-- The instruction a 16-bit code stands for, or the name of why it is none (R89, R90). -/
def decode (w : Half) : Except DecodeError Instr :=
  match decodeNibbles (w.extractLsb' 12 4) (w.extractLsb' 8 4) (w.extractLsb' 4 4) (w.extractLsb' 0 4) with
  | some i => .ok i
  | none => .error (.unassigned w)

/-- The code two bytes in memory order stand for (R52: in big-endian order the byte at the lower address holds
bits 15-8). -/
def codeOfBytes (bigEndian : Bool) (b0 b1 : Byte) : Half :=
  if bigEndian then b0 ++ b1 else b1 ++ b0

/-- Decode the instruction at the front of a list of bytes in memory order, with the bytes that follow it. -/
def decodeBytes (bigEndian : Bool) (bytes : List Byte) : Except DecodeError (Instr × List Byte) :=
  match bytes with
  | b0 :: b1 :: rest =>
    match decode (codeOfBytes bigEndian b0 b1) with
    | .ok i => .ok (i, rest)
    | .error e => .error e
  | _ => .error .truncated

/-- The bytes of a code in memory order, lowest address first: the inverse of `codeOfBytes`. -/
def bytesOfCode (bigEndian : Bool) (w : Half) : List Byte :=
  if bigEndian then [w.extractLsb' 8 8, w.extractLsb' 0 8] else [w.extractLsb' 0 8, w.extractLsb' 8 8]

/-- The instruction the decoder reads from the code `w` of `nbits` bits, laid out as the default byte order of
R52 stores it. -/
def decodeTableWord (nbits w : Nat) : Option Instr :=
  match decodeBytes true (bytesOfCode true (BitVec.ofNat 16 (w % 2 ^ nbits))) with
  | .ok (i, _) => some i
  | .error _ => none

/-! ### Encoding -/

/-- The code of four nibbles, most significant first (R81). -/
def nibbles (a n m d : BitVec 4) : Half :=
  a ++ n ++ m ++ d

/-- The code of two nibbles and a byte field (formats d, nd8, i, ni of R81). -/
def nibblesByte (a n : BitVec 4) (b : BitVec 8) : Half :=
  nibbles a n (b.extractLsb' 4 4) (b.extractLsb' 0 4)

/-- The code of one nibble and a 12-bit field (format d12 of R81). -/
def nibbleDisp12 (a : BitVec 4) (disp : BitVec 12) : Half :=
  nibbles a (disp.extractLsb' 8 4) (disp.extractLsb' 4 4) (disp.extractLsb' 0 4)

/-- The 16-bit code of an instruction, from its row of the opcode table (R81, R89). -/
def encode (i : Instr) : Half :=
  match i with
  | .movImm imm n => nibblesByte 0xE n imm
  | .movWPcRel disp n => nibblesByte 0x9 n disp
  | .movLPcRel disp n => nibblesByte 0xD n disp
  | .movReg m n => nibbles 0x6 n m 0x3
  | .movBStore m n => nibbles 0x2 n m 0x0
  | .movWStore m n => nibbles 0x2 n m 0x1
  | .movLStore m n => nibbles 0x2 n m 0x2
  | .movBLoad m n => nibbles 0x6 n m 0x0
  | .movWLoad m n => nibbles 0x6 n m 0x1
  | .movLLoad m n => nibbles 0x6 n m 0x2
  | .movBStoreDec m n => nibbles 0x2 n m 0x4
  | .movWStoreDec m n => nibbles 0x2 n m 0x5
  | .movLStoreDec m n => nibbles 0x2 n m 0x6
  | .movBLoadInc m n => nibbles 0x6 n m 0x4
  | .movWLoadInc m n => nibbles 0x6 n m 0x5
  | .movLLoadInc m n => nibbles 0x6 n m 0x6
  | .movBStoreDisp disp n => nibbles 0x8 0x0 n disp
  | .movWStoreDisp disp n => nibbles 0x8 0x1 n disp
  | .movLStoreDisp m disp n => nibbles 0x1 n m disp
  | .movBLoadDisp disp m => nibbles 0x8 0x4 m disp
  | .movWLoadDisp disp m => nibbles 0x8 0x5 m disp
  | .movLLoadDisp disp m n => nibbles 0x5 n m disp
  | .movBStoreIdx m n => nibbles 0x0 n m 0x4
  | .movWStoreIdx m n => nibbles 0x0 n m 0x5
  | .movLStoreIdx m n => nibbles 0x0 n m 0x6
  | .movBLoadIdx m n => nibbles 0x0 n m 0xC
  | .movWLoadIdx m n => nibbles 0x0 n m 0xD
  | .movLLoadIdx m n => nibbles 0x0 n m 0xE
  | .movBStoreGbr disp => nibblesByte 0xC 0x0 disp
  | .movWStoreGbr disp => nibblesByte 0xC 0x1 disp
  | .movLStoreGbr disp => nibblesByte 0xC 0x2 disp
  | .movBLoadGbr disp => nibblesByte 0xC 0x4 disp
  | .movWLoadGbr disp => nibblesByte 0xC 0x5 disp
  | .movLLoadGbr disp => nibblesByte 0xC 0x6 disp
  | .mova disp => nibblesByte 0xC 0x7 disp
  | .movt n => nibbles 0x0 n 0x2 0x9
  | .swapB m n => nibbles 0x6 n m 0x8
  | .swapW m n => nibbles 0x6 n m 0x9
  | .xtrct m n => nibbles 0x2 n m 0xD
  | .addReg m n => nibbles 0x3 n m 0xC
  | .addImm imm n => nibblesByte 0x7 n imm
  | .addc m n => nibbles 0x3 n m 0xE
  | .addv m n => nibbles 0x3 n m 0xF
  | .cmpEqImm imm => nibblesByte 0x8 0x8 imm
  | .cmpEq m n => nibbles 0x3 n m 0x0
  | .cmpHs m n => nibbles 0x3 n m 0x2
  | .cmpGe m n => nibbles 0x3 n m 0x3
  | .cmpHi m n => nibbles 0x3 n m 0x6
  | .cmpGt m n => nibbles 0x3 n m 0x7
  | .cmpPl n => nibbles 0x4 n 0x1 0x5
  | .cmpPz n => nibbles 0x4 n 0x1 0x1
  | .cmpStr m n => nibbles 0x2 n m 0xC
  | .div1 m n => nibbles 0x3 n m 0x4
  | .div0s m n => nibbles 0x2 n m 0x7
  | .div0u => nibbles 0x0 0x0 0x1 0x9
  | .dmulsL m n => nibbles 0x3 n m 0xD
  | .dmuluL m n => nibbles 0x3 n m 0x5
  | .dt n => nibbles 0x4 n 0x1 0x0
  | .extsB m n => nibbles 0x6 n m 0xE
  | .extsW m n => nibbles 0x6 n m 0xF
  | .extuB m n => nibbles 0x6 n m 0xC
  | .extuW m n => nibbles 0x6 n m 0xD
  | .macL m n => nibbles 0x0 n m 0xF
  | .macW m n => nibbles 0x4 n m 0xF
  | .mulL m n => nibbles 0x0 n m 0x7
  | .mulsW m n => nibbles 0x2 n m 0xF
  | .muluW m n => nibbles 0x2 n m 0xE
  | .neg m n => nibbles 0x6 n m 0xB
  | .negc m n => nibbles 0x6 n m 0xA
  | .sub m n => nibbles 0x3 n m 0x8
  | .subc m n => nibbles 0x3 n m 0xA
  | .subv m n => nibbles 0x3 n m 0xB
  | .andReg m n => nibbles 0x2 n m 0x9
  | .andImm imm => nibblesByte 0xC 0x9 imm
  | .andB imm => nibblesByte 0xC 0xD imm
  | .not m n => nibbles 0x6 n m 0x7
  | .orReg m n => nibbles 0x2 n m 0xB
  | .orImm imm => nibblesByte 0xC 0xB imm
  | .orB imm => nibblesByte 0xC 0xF imm
  | .tasB n => nibbles 0x4 n 0x1 0xB
  | .tstReg m n => nibbles 0x2 n m 0x8
  | .tstImm imm => nibblesByte 0xC 0x8 imm
  | .tstB imm => nibblesByte 0xC 0xC imm
  | .xorReg m n => nibbles 0x2 n m 0xA
  | .xorImm imm => nibblesByte 0xC 0xA imm
  | .xorB imm => nibblesByte 0xC 0xE imm
  | .rotl n => nibbles 0x4 n 0x0 0x4
  | .rotr n => nibbles 0x4 n 0x0 0x5
  | .rotcl n => nibbles 0x4 n 0x2 0x4
  | .rotcr n => nibbles 0x4 n 0x2 0x5
  | .shal n => nibbles 0x4 n 0x2 0x0
  | .shar n => nibbles 0x4 n 0x2 0x1
  | .shll n => nibbles 0x4 n 0x0 0x0
  | .shlr n => nibbles 0x4 n 0x0 0x1
  | .shll2 n => nibbles 0x4 n 0x0 0x8
  | .shlr2 n => nibbles 0x4 n 0x0 0x9
  | .shll8 n => nibbles 0x4 n 0x1 0x8
  | .shlr8 n => nibbles 0x4 n 0x1 0x9
  | .shll16 n => nibbles 0x4 n 0x2 0x8
  | .shlr16 n => nibbles 0x4 n 0x2 0x9
  | .bf disp => nibblesByte 0x8 0xB disp
  | .bfS disp => nibblesByte 0x8 0xF disp
  | .bt disp => nibblesByte 0x8 0x9 disp
  | .btS disp => nibblesByte 0x8 0xD disp
  | .bra disp => nibbleDisp12 0xA disp
  | .braf m => nibbles 0x0 m 0x2 0x3
  | .bsr disp => nibbleDisp12 0xB disp
  | .bsrf m => nibbles 0x0 m 0x0 0x3
  | .jmp m => nibbles 0x4 m 0x2 0xB
  | .jsr m => nibbles 0x4 m 0x0 0xB
  | .rts => nibbles 0x0 0x0 0x0 0xB
  | .clrt => nibbles 0x0 0x0 0x0 0x8
  | .clrmac => nibbles 0x0 0x0 0x2 0x8
  | .ldcSr m => nibbles 0x4 m 0x0 0xE
  | .ldcGbr m => nibbles 0x4 m 0x1 0xE
  | .ldcVbr m => nibbles 0x4 m 0x2 0xE
  | .ldcLSr m => nibbles 0x4 m 0x0 0x7
  | .ldcLGbr m => nibbles 0x4 m 0x1 0x7
  | .ldcLVbr m => nibbles 0x4 m 0x2 0x7
  | .ldsMach m => nibbles 0x4 m 0x0 0xA
  | .ldsMacl m => nibbles 0x4 m 0x1 0xA
  | .ldsPr m => nibbles 0x4 m 0x2 0xA
  | .ldsLMach m => nibbles 0x4 m 0x0 0x6
  | .ldsLMacl m => nibbles 0x4 m 0x1 0x6
  | .ldsLPr m => nibbles 0x4 m 0x2 0x6
  | .nop => nibbles 0x0 0x0 0x0 0x9
  | .rte => nibbles 0x0 0x0 0x2 0xB
  | .sett => nibbles 0x0 0x0 0x1 0x8
  | .sleep => nibbles 0x0 0x0 0x1 0xB
  | .stcSr n => nibbles 0x0 n 0x0 0x2
  | .stcGbr n => nibbles 0x0 n 0x1 0x2
  | .stcVbr n => nibbles 0x0 n 0x2 0x2
  | .stcLSr n => nibbles 0x4 n 0x0 0x3
  | .stcLGbr n => nibbles 0x4 n 0x1 0x3
  | .stcLVbr n => nibbles 0x4 n 0x2 0x3
  | .stsMach n => nibbles 0x0 n 0x0 0xA
  | .stsMacl n => nibbles 0x0 n 0x1 0xA
  | .stsPr n => nibbles 0x0 n 0x2 0xA
  | .stsLMach n => nibbles 0x4 n 0x0 0x2
  | .stsLMacl n => nibbles 0x4 n 0x1 0x2
  | .stsLPr n => nibbles 0x4 n 0x2 0x2
  | .trapa imm => nibblesByte 0xC 0x3 imm
  | .fabs n => nibbles 0xF n 0x5 0xD
  | .fadd m n => nibbles 0xF n m 0x0
  | .fcmpEq m n => nibbles 0xF n m 0x4
  | .fcmpGt m n => nibbles 0xF n m 0x5
  | .fdiv m n => nibbles 0xF n m 0x3
  | .fldi0 n => nibbles 0xF n 0x8 0xD
  | .fldi1 n => nibbles 0xF n 0x9 0xD
  | .flds m => nibbles 0xF m 0x1 0xD
  | .float n => nibbles 0xF n 0x2 0xD
  | .fmac m n => nibbles 0xF n m 0xE
  | .fmov m n => nibbles 0xF n m 0xC
  | .fmovLoadIdx m n => nibbles 0xF n m 0x6
  | .fmovLoadInc m n => nibbles 0xF n m 0x9
  | .fmovLoad m n => nibbles 0xF n m 0x8
  | .fmovStoreIdx m n => nibbles 0xF n m 0x7
  | .fmovStoreDec m n => nibbles 0xF n m 0xB
  | .fmovStore m n => nibbles 0xF n m 0xA
  | .fmul m n => nibbles 0xF n m 0x2
  | .fneg n => nibbles 0xF n 0x4 0xD
  | .fsts n => nibbles 0xF n 0x0 0xD
  | .fsub m n => nibbles 0xF n m 0x1
  | .ftrc m => nibbles 0xF m 0x3 0xD
  | .ldsFpscr m => nibbles 0x4 m 0x6 0xA
  | .ldsFpul m => nibbles 0x4 m 0x5 0xA
  | .ldsLFpscr m => nibbles 0x4 m 0x6 0x6
  | .ldsLFpul m => nibbles 0x4 m 0x5 0x6
  | .stsFpscr n => nibbles 0x0 n 0x6 0xA
  | .stsFpul n => nibbles 0x0 n 0x5 0xA
  | .stsLFpscr n => nibbles 0x4 n 0x6 0x2
  | .stsLFpul n => nibbles 0x4 n 0x5 0x2

/-! ### The opcode table's own columns -/

/-- The fixed bits of an instruction's row of spec/opcode_table.json (column mask, R89). -/
def Instr.tableMask (i : Instr) : Half :=
  match i with
  | .movImm _ _ => 0xF000
  | .movWPcRel _ _ => 0xF000
  | .movLPcRel _ _ => 0xF000
  | .movReg _ _ => 0xF00F
  | .movBStore _ _ => 0xF00F
  | .movWStore _ _ => 0xF00F
  | .movLStore _ _ => 0xF00F
  | .movBLoad _ _ => 0xF00F
  | .movWLoad _ _ => 0xF00F
  | .movLLoad _ _ => 0xF00F
  | .movBStoreDec _ _ => 0xF00F
  | .movWStoreDec _ _ => 0xF00F
  | .movLStoreDec _ _ => 0xF00F
  | .movBLoadInc _ _ => 0xF00F
  | .movWLoadInc _ _ => 0xF00F
  | .movLLoadInc _ _ => 0xF00F
  | .movBStoreDisp _ _ => 0xFF00
  | .movWStoreDisp _ _ => 0xFF00
  | .movLStoreDisp _ _ _ => 0xF000
  | .movBLoadDisp _ _ => 0xFF00
  | .movWLoadDisp _ _ => 0xFF00
  | .movLLoadDisp _ _ _ => 0xF000
  | .movBStoreIdx _ _ => 0xF00F
  | .movWStoreIdx _ _ => 0xF00F
  | .movLStoreIdx _ _ => 0xF00F
  | .movBLoadIdx _ _ => 0xF00F
  | .movWLoadIdx _ _ => 0xF00F
  | .movLLoadIdx _ _ => 0xF00F
  | .movBStoreGbr _ => 0xFF00
  | .movWStoreGbr _ => 0xFF00
  | .movLStoreGbr _ => 0xFF00
  | .movBLoadGbr _ => 0xFF00
  | .movWLoadGbr _ => 0xFF00
  | .movLLoadGbr _ => 0xFF00
  | .mova _ => 0xFF00
  | .movt _ => 0xF0FF
  | .swapB _ _ => 0xF00F
  | .swapW _ _ => 0xF00F
  | .xtrct _ _ => 0xF00F
  | .addReg _ _ => 0xF00F
  | .addImm _ _ => 0xF000
  | .addc _ _ => 0xF00F
  | .addv _ _ => 0xF00F
  | .cmpEqImm _ => 0xFF00
  | .cmpEq _ _ => 0xF00F
  | .cmpHs _ _ => 0xF00F
  | .cmpGe _ _ => 0xF00F
  | .cmpHi _ _ => 0xF00F
  | .cmpGt _ _ => 0xF00F
  | .cmpPl _ => 0xF0FF
  | .cmpPz _ => 0xF0FF
  | .cmpStr _ _ => 0xF00F
  | .div1 _ _ => 0xF00F
  | .div0s _ _ => 0xF00F
  | .div0u => 0xFFFF
  | .dmulsL _ _ => 0xF00F
  | .dmuluL _ _ => 0xF00F
  | .dt _ => 0xF0FF
  | .extsB _ _ => 0xF00F
  | .extsW _ _ => 0xF00F
  | .extuB _ _ => 0xF00F
  | .extuW _ _ => 0xF00F
  | .macL _ _ => 0xF00F
  | .macW _ _ => 0xF00F
  | .mulL _ _ => 0xF00F
  | .mulsW _ _ => 0xF00F
  | .muluW _ _ => 0xF00F
  | .neg _ _ => 0xF00F
  | .negc _ _ => 0xF00F
  | .sub _ _ => 0xF00F
  | .subc _ _ => 0xF00F
  | .subv _ _ => 0xF00F
  | .andReg _ _ => 0xF00F
  | .andImm _ => 0xFF00
  | .andB _ => 0xFF00
  | .not _ _ => 0xF00F
  | .orReg _ _ => 0xF00F
  | .orImm _ => 0xFF00
  | .orB _ => 0xFF00
  | .tasB _ => 0xF0FF
  | .tstReg _ _ => 0xF00F
  | .tstImm _ => 0xFF00
  | .tstB _ => 0xFF00
  | .xorReg _ _ => 0xF00F
  | .xorImm _ => 0xFF00
  | .xorB _ => 0xFF00
  | .rotl _ => 0xF0FF
  | .rotr _ => 0xF0FF
  | .rotcl _ => 0xF0FF
  | .rotcr _ => 0xF0FF
  | .shal _ => 0xF0FF
  | .shar _ => 0xF0FF
  | .shll _ => 0xF0FF
  | .shlr _ => 0xF0FF
  | .shll2 _ => 0xF0FF
  | .shlr2 _ => 0xF0FF
  | .shll8 _ => 0xF0FF
  | .shlr8 _ => 0xF0FF
  | .shll16 _ => 0xF0FF
  | .shlr16 _ => 0xF0FF
  | .bf _ => 0xFF00
  | .bfS _ => 0xFF00
  | .bt _ => 0xFF00
  | .btS _ => 0xFF00
  | .bra _ => 0xF000
  | .braf _ => 0xF0FF
  | .bsr _ => 0xF000
  | .bsrf _ => 0xF0FF
  | .jmp _ => 0xF0FF
  | .jsr _ => 0xF0FF
  | .rts => 0xFFFF
  | .clrt => 0xFFFF
  | .clrmac => 0xFFFF
  | .ldcSr _ => 0xF0FF
  | .ldcGbr _ => 0xF0FF
  | .ldcVbr _ => 0xF0FF
  | .ldcLSr _ => 0xF0FF
  | .ldcLGbr _ => 0xF0FF
  | .ldcLVbr _ => 0xF0FF
  | .ldsMach _ => 0xF0FF
  | .ldsMacl _ => 0xF0FF
  | .ldsPr _ => 0xF0FF
  | .ldsLMach _ => 0xF0FF
  | .ldsLMacl _ => 0xF0FF
  | .ldsLPr _ => 0xF0FF
  | .nop => 0xFFFF
  | .rte => 0xFFFF
  | .sett => 0xFFFF
  | .sleep => 0xFFFF
  | .stcSr _ => 0xF0FF
  | .stcGbr _ => 0xF0FF
  | .stcVbr _ => 0xF0FF
  | .stcLSr _ => 0xF0FF
  | .stcLGbr _ => 0xF0FF
  | .stcLVbr _ => 0xF0FF
  | .stsMach _ => 0xF0FF
  | .stsMacl _ => 0xF0FF
  | .stsPr _ => 0xF0FF
  | .stsLMach _ => 0xF0FF
  | .stsLMacl _ => 0xF0FF
  | .stsLPr _ => 0xF0FF
  | .trapa _ => 0xFF00
  | .fabs _ => 0xF0FF
  | .fadd _ _ => 0xF00F
  | .fcmpEq _ _ => 0xF00F
  | .fcmpGt _ _ => 0xF00F
  | .fdiv _ _ => 0xF00F
  | .fldi0 _ => 0xF0FF
  | .fldi1 _ => 0xF0FF
  | .flds _ => 0xF0FF
  | .float _ => 0xF0FF
  | .fmac _ _ => 0xF00F
  | .fmov _ _ => 0xF00F
  | .fmovLoadIdx _ _ => 0xF00F
  | .fmovLoadInc _ _ => 0xF00F
  | .fmovLoad _ _ => 0xF00F
  | .fmovStoreIdx _ _ => 0xF00F
  | .fmovStoreDec _ _ => 0xF00F
  | .fmovStore _ _ => 0xF00F
  | .fmul _ _ => 0xF00F
  | .fneg _ => 0xF0FF
  | .fsts _ => 0xF0FF
  | .fsub _ _ => 0xF00F
  | .ftrc _ => 0xF0FF
  | .ldsFpscr _ => 0xF0FF
  | .ldsFpul _ => 0xF0FF
  | .ldsLFpscr _ => 0xF0FF
  | .ldsLFpul _ => 0xF0FF
  | .stsFpscr _ => 0xF0FF
  | .stsFpul _ => 0xF0FF
  | .stsLFpscr _ => 0xF0FF
  | .stsLFpul _ => 0xF0FF

/-- The values of the fixed bits of an instruction's row (column match, R89). -/
def Instr.tableMatch (i : Instr) : Half :=
  match i with
  | .movImm _ _ => 0xE000
  | .movWPcRel _ _ => 0x9000
  | .movLPcRel _ _ => 0xD000
  | .movReg _ _ => 0x6003
  | .movBStore _ _ => 0x2000
  | .movWStore _ _ => 0x2001
  | .movLStore _ _ => 0x2002
  | .movBLoad _ _ => 0x6000
  | .movWLoad _ _ => 0x6001
  | .movLLoad _ _ => 0x6002
  | .movBStoreDec _ _ => 0x2004
  | .movWStoreDec _ _ => 0x2005
  | .movLStoreDec _ _ => 0x2006
  | .movBLoadInc _ _ => 0x6004
  | .movWLoadInc _ _ => 0x6005
  | .movLLoadInc _ _ => 0x6006
  | .movBStoreDisp _ _ => 0x8000
  | .movWStoreDisp _ _ => 0x8100
  | .movLStoreDisp _ _ _ => 0x1000
  | .movBLoadDisp _ _ => 0x8400
  | .movWLoadDisp _ _ => 0x8500
  | .movLLoadDisp _ _ _ => 0x5000
  | .movBStoreIdx _ _ => 0x0004
  | .movWStoreIdx _ _ => 0x0005
  | .movLStoreIdx _ _ => 0x0006
  | .movBLoadIdx _ _ => 0x000C
  | .movWLoadIdx _ _ => 0x000D
  | .movLLoadIdx _ _ => 0x000E
  | .movBStoreGbr _ => 0xC000
  | .movWStoreGbr _ => 0xC100
  | .movLStoreGbr _ => 0xC200
  | .movBLoadGbr _ => 0xC400
  | .movWLoadGbr _ => 0xC500
  | .movLLoadGbr _ => 0xC600
  | .mova _ => 0xC700
  | .movt _ => 0x0029
  | .swapB _ _ => 0x6008
  | .swapW _ _ => 0x6009
  | .xtrct _ _ => 0x200D
  | .addReg _ _ => 0x300C
  | .addImm _ _ => 0x7000
  | .addc _ _ => 0x300E
  | .addv _ _ => 0x300F
  | .cmpEqImm _ => 0x8800
  | .cmpEq _ _ => 0x3000
  | .cmpHs _ _ => 0x3002
  | .cmpGe _ _ => 0x3003
  | .cmpHi _ _ => 0x3006
  | .cmpGt _ _ => 0x3007
  | .cmpPl _ => 0x4015
  | .cmpPz _ => 0x4011
  | .cmpStr _ _ => 0x200C
  | .div1 _ _ => 0x3004
  | .div0s _ _ => 0x2007
  | .div0u => 0x0019
  | .dmulsL _ _ => 0x300D
  | .dmuluL _ _ => 0x3005
  | .dt _ => 0x4010
  | .extsB _ _ => 0x600E
  | .extsW _ _ => 0x600F
  | .extuB _ _ => 0x600C
  | .extuW _ _ => 0x600D
  | .macL _ _ => 0x000F
  | .macW _ _ => 0x400F
  | .mulL _ _ => 0x0007
  | .mulsW _ _ => 0x200F
  | .muluW _ _ => 0x200E
  | .neg _ _ => 0x600B
  | .negc _ _ => 0x600A
  | .sub _ _ => 0x3008
  | .subc _ _ => 0x300A
  | .subv _ _ => 0x300B
  | .andReg _ _ => 0x2009
  | .andImm _ => 0xC900
  | .andB _ => 0xCD00
  | .not _ _ => 0x6007
  | .orReg _ _ => 0x200B
  | .orImm _ => 0xCB00
  | .orB _ => 0xCF00
  | .tasB _ => 0x401B
  | .tstReg _ _ => 0x2008
  | .tstImm _ => 0xC800
  | .tstB _ => 0xCC00
  | .xorReg _ _ => 0x200A
  | .xorImm _ => 0xCA00
  | .xorB _ => 0xCE00
  | .rotl _ => 0x4004
  | .rotr _ => 0x4005
  | .rotcl _ => 0x4024
  | .rotcr _ => 0x4025
  | .shal _ => 0x4020
  | .shar _ => 0x4021
  | .shll _ => 0x4000
  | .shlr _ => 0x4001
  | .shll2 _ => 0x4008
  | .shlr2 _ => 0x4009
  | .shll8 _ => 0x4018
  | .shlr8 _ => 0x4019
  | .shll16 _ => 0x4028
  | .shlr16 _ => 0x4029
  | .bf _ => 0x8B00
  | .bfS _ => 0x8F00
  | .bt _ => 0x8900
  | .btS _ => 0x8D00
  | .bra _ => 0xA000
  | .braf _ => 0x0023
  | .bsr _ => 0xB000
  | .bsrf _ => 0x0003
  | .jmp _ => 0x402B
  | .jsr _ => 0x400B
  | .rts => 0x000B
  | .clrt => 0x0008
  | .clrmac => 0x0028
  | .ldcSr _ => 0x400E
  | .ldcGbr _ => 0x401E
  | .ldcVbr _ => 0x402E
  | .ldcLSr _ => 0x4007
  | .ldcLGbr _ => 0x4017
  | .ldcLVbr _ => 0x4027
  | .ldsMach _ => 0x400A
  | .ldsMacl _ => 0x401A
  | .ldsPr _ => 0x402A
  | .ldsLMach _ => 0x4006
  | .ldsLMacl _ => 0x4016
  | .ldsLPr _ => 0x4026
  | .nop => 0x0009
  | .rte => 0x002B
  | .sett => 0x0018
  | .sleep => 0x001B
  | .stcSr _ => 0x0002
  | .stcGbr _ => 0x0012
  | .stcVbr _ => 0x0022
  | .stcLSr _ => 0x4003
  | .stcLGbr _ => 0x4013
  | .stcLVbr _ => 0x4023
  | .stsMach _ => 0x000A
  | .stsMacl _ => 0x001A
  | .stsPr _ => 0x002A
  | .stsLMach _ => 0x4002
  | .stsLMacl _ => 0x4012
  | .stsLPr _ => 0x4022
  | .trapa _ => 0xC300
  | .fabs _ => 0xF05D
  | .fadd _ _ => 0xF000
  | .fcmpEq _ _ => 0xF004
  | .fcmpGt _ _ => 0xF005
  | .fdiv _ _ => 0xF003
  | .fldi0 _ => 0xF08D
  | .fldi1 _ => 0xF09D
  | .flds _ => 0xF01D
  | .float _ => 0xF02D
  | .fmac _ _ => 0xF00E
  | .fmov _ _ => 0xF00C
  | .fmovLoadIdx _ _ => 0xF006
  | .fmovLoadInc _ _ => 0xF009
  | .fmovLoad _ _ => 0xF008
  | .fmovStoreIdx _ _ => 0xF007
  | .fmovStoreDec _ _ => 0xF00B
  | .fmovStore _ _ => 0xF00A
  | .fmul _ _ => 0xF002
  | .fneg _ => 0xF04D
  | .fsts _ => 0xF00D
  | .fsub _ _ => 0xF001
  | .ftrc _ => 0xF03D
  | .ldsFpscr _ => 0x406A
  | .ldsFpul _ => 0x405A
  | .ldsLFpscr _ => 0x4066
  | .ldsLFpul _ => 0x4056
  | .stsFpscr _ => 0x006A
  | .stsFpul _ => 0x005A
  | .stsLFpscr _ => 0x4062
  | .stsLFpul _ => 0x4052

end Sys2Proof
end

