-- ==== Sys2Proof/Machine/Bits.lean ====
section
/-! DEFINITION. Bit fields, sign and zero extension, and byte order (R51, R52, 20_memory; R102, 40_data_transfer). -/

namespace Sys2Proof.Machine

/-- `sext8`: a byte sign-extended to a longword (R102). -/
def sext8 (b : Byte) : Word := b.signExtend 32

/-- `sext16`: a word sign-extended to a longword (R102). -/
def sext16 (h : Half) : Word := h.signExtend 32

/-- A byte zero-extended to a longword (R200, 42_logic). -/
def zext8 (b : Byte) : Word := b.setWidth 32

/-- Bits 7-0 of a register (R51). -/
def lowByte (w : Word) : Byte := w.extractLsb' 0 8

/-- Bits 15-0 of a register (R51). -/
def lowHalf (w : Word) : Half := w.extractLsb' 0 16

/-- Bits 31-16 of a register. -/
def highHalf (w : Word) : Half := w.extractLsb' 16 16

/-- A longword with bit `i` set to `b`. -/
def setBit (w : Word) (i : Nat) (b : Bool) : Word :=
  if b then w ||| BitVec.twoPow 32 i else w &&& ~~~(BitVec.twoPow 32 i)

/-- A Boolean as the number 0 or 1, at the width of a register (R140, 40_data_transfer). -/
def bitWord (b : Bool) : Word := if b then 1 else 0

/-- The number 0 or 1. -/
def bitNat (b : Bool) : Nat := if b then 1 else 0

/-- A word from its bytes in memory order (R52). -/
def join16 (bigEndian : Bool) (b0 b1 : Byte) : Half :=
  if bigEndian then b0 ++ b1 else b1 ++ b0

/-- A longword from its bytes in memory order (R52). -/
def join32 (bigEndian : Bool) (b0 b1 b2 b3 : Byte) : Word :=
  if bigEndian then b0 ++ b1 ++ b2 ++ b3 else b3 ++ b2 ++ b1 ++ b0

/-- The byte `i` of a word in memory order (R52). -/
def byteOf16 (bigEndian : Bool) (h : Half) (i : Nat) : Byte :=
  if bigEndian then h.extractLsb' (8 * (1 - i)) 8 else h.extractLsb' (8 * i) 8

/-- The byte `i` of a longword in memory order (R52). -/
def byteOf32 (bigEndian : Bool) (w : Word) (i : Nat) : Byte :=
  if bigEndian then w.extractLsb' (8 * (3 - i)) 8 else w.extractLsb' (8 * i) 8

end Sys2Proof.Machine
end

