-- ==== Sys2Proof/Machine/Memory.lean ====
section
/-! DEFINITION. Memory as plain data: 2^32 bytes (R32, 10_state; R50, 20_memory) held as a list of address and byte
pairs in one canonical form, addresses strictly rising and no entry equal to what an unlisted address reads as. -/

namespace Sys2Proof.Machine

/-- What memory holds, by address. -/
abbrev Memory := List Host.Cell

/-- What an address that nothing has written reads as.
DESIGN CHOICE, unsafe: the spec states no memory contents (R38; assumption 16). -/
def blankByte : Byte := 0

/-- The byte at an address. -/
def Memory.byteAt (mem : Memory) (a : Nat) : Byte :=
  match mem with
  | [] => blankByte
  | (k, b) :: rest => if a < k then blankByte else if a = k then b else Memory.byteAt rest a

/-- Write a byte at an address, keeping the canonical form: a blank byte is not listed. -/
def Memory.setByte (mem : Memory) (a : Nat) (v : Byte) : Memory :=
  match mem with
  | [] => if v = blankByte then [] else [(a, v)]
  | (k, b) :: rest =>
    if a < k then (if v = blankByte then (k, b) :: rest else (a, v) :: (k, b) :: rest)
    else if a = k then (if v = blankByte then rest else (a, v) :: rest)
    else (k, b) :: Memory.setByte rest a v

/-- The canonical form of a list whose addresses all lie at or above `low`. -/
def Memory.wfFrom (low : Nat) (mem : Memory) : Bool :=
  match mem with
  | [] => true
  | (k, b) :: rest => decide (low ≤ k) && decide (k < 2 ^ 32) && decide (b ≠ blankByte) && Memory.wfFrom (k + 1) rest

/-- The canonical form: addresses below 2^32 and strictly rising, no blank byte listed. -/
def Memory.wf (mem : Memory) : Bool :=
  Memory.wfFrom 0 mem

/-- Add an address to a strictly rising list of addresses. -/
def insertAddr (addrs : List Nat) (a : Nat) : List Nat :=
  match addrs with
  | [] => [a]
  | k :: rest => if a < k then a :: k :: rest else if a = k then k :: rest else k :: insertAddr rest a

end Sys2Proof.Machine
end

