-- ==== Sys2Proof/Config.lean ====
section
/-! DEFINITION. What an implementation fixes (the parameters P1 to P13 of 00_scope section 4, decided or left open
in 92_eei_decisions), the environment's inputs (P5, P6), and the free values: constants without a body, of which
nothing can be proved, for what the spec leaves open (93_implementation_defined). -/

namespace Sys2Proof

/-! ### Types of the parameters -/

/-- The stacked PC of an exception of an instruction outside a delay slot (P4; R404, R408, R411, 60_exceptions). -/
inductive StackedPcPlain where
  /-- The address of the instruction itself, `pc`. -/
  | self
  /-- The address after it, `pc + 2`. -/
  | next
  deriving DecidableEq, Repr, Inhabited

/-- The stacked PC of an exception of a slot instruction: the candidates R405 names (P4; R405, R408). -/
inductive StackedPcSlot where
  /-- The destination of the delayed branch. -/
  | target
  /-- The address of the delayed branch, `pc - 2`. -/
  | branch
  /-- The address of the slot instruction, `pc`. -/
  | self
  deriving DecidableEq, Repr, Inhabited

/-- What an address holds (P8 `mem_map`; D8, 92_eei_decisions). -/
inductive RegionKind where
  /-- Memory that keeps what is written. -/
  | ram
  /-- Memory that ignores writes. -/
  | rom
  /-- Memory whose writes fault the run. -/
  | romFault
  /-- A device or volatile location: a read may return any value, a write leaves the model's memory alone. -/
  | device
  /-- Nothing: an access faults the run. -/
  | absent
  deriving DecidableEq, Repr, Inhabited

/-- A range of addresses of one kind (P8). -/
structure Region where
  base : Nat
  size : Nat
  kind : RegionKind
  deriving DecidableEq, Repr, Inhabited

/-- The implementation parameters (00_scope section 4), constant during a run.  P5 `irq_oracle` and the kind of a
reset (P6) are the inputs of `Input`; P9 `fpu_stopped` is a field of the state (R37). -/
structure Params where
  /-- P1 `BIG_ENDIAN` (D1; R52, 20_memory). -/
  bigEndian : Bool
  /-- P2 `SR_MASK` (D2; R21, 10_state). -/
  srMask : Word
  /-- P3 `VEC_ILLEGAL` (D3; R402, 60_exceptions). -/
  vecIllegal : BitVec 8
  /-- P3 `VEC_SLOT_ILLEGAL`. -/
  vecSlotIllegal : BitVec 8
  /-- P3 `VEC_ADDRESS_ERROR`. -/
  vecAddressError : BitVec 8
  /-- P3 `VEC_NMI`. -/
  vecNmi : BitVec 8
  /-- P3 `VEC_USER_BREAK`. -/
  vecUserBreak : BitVec 8
  /-- P4 `STACKED_PC_ILLEGAL` (D4; R404). -/
  stackedPcIllegal : StackedPcPlain
  /-- P4 `STACKED_PC_SLOT_ILLEGAL` (D4; R405). -/
  stackedPcSlotIllegal : StackedPcSlot
  /-- P4 `STACKED_PC_FPU` outside a delay slot (D4; R408). -/
  stackedPcFpu : StackedPcPlain
  /-- P4 `STACKED_PC_FPU` in a delay slot, where R408 leaves the same openness as R405. -/
  stackedPcFpuSlot : StackedPcSlot
  /-- P4 `STACKED_PC_ADDRESS_ERROR`, outside and in a delay slot; with `none` an address error faults the run
  (D7; R406). -/
  stackedPcAddressError : Option (StackedPcPlain × StackedPcSlot)
  /-- P6 `RESET_VEC_PC` of a power-on reset (D6; R451, 70_reset_and_hazards). -/
  resetPcPowerOn : BitVec 8
  /-- P6 `RESET_VEC_SP` of a power-on reset. -/
  resetSpPowerOn : BitVec 8
  /-- P6 `RESET_VEC_PC` of a manual reset. -/
  resetPcManual : BitVec 8
  /-- P6 `RESET_VEC_SP` of a manual reset. -/
  resetSpManual : BitVec 8
  /-- P7 `FMAC_FUSED` (D12; R339, 46_floating_point). -/
  fmacFused : Bool
  /-- P8 `mem_map` (D8): the first region that holds an address gives its kind; any other address is RAM. -/
  memMap : List Region
  /-- P10 `FETCH_COHERENT` (D9; R67, 20_memory). -/
  fetchCoherent : Bool
  /-- P11 `MACW_OVF_SETS_MACH_LSB` (D18; R179, 41_arithmetic). -/
  macwOvfSetsMachLsb : Bool
  /-- P12 `UNTAKEN_SLOT_IS_SLOT` (D19; R246, 44_branch). -/
  untakenSlotIsSlot : Bool
  /-- P13 `FLOAT_CLEARS_CAUSE` (D21; R314, 46_floating_point). -/
  floatClearsCause : Bool
  deriving DecidableEq, Repr

/-! ### The environment's inputs -/

/-- An interrupt request the environment presents at an instruction boundary (R409, 60_exceptions). -/
inductive IrqRequest where
  /-- The non-maskable interrupt, at vector `VEC_NMI`. -/
  | nmi
  /-- A user break of the given level, at vector `VEC_USER_BREAK` (R402). -/
  | userBreak (level : BitVec 4)
  /-- An IRQ or on-chip peripheral interrupt with its level and vector. -/
  | maskable (level : BitVec 4) (vector : BitVec 8)
  deriving DecidableEq, Repr

/-- The kinds of reset (P6 `reset_kind`; R451, R452, 70_reset_and_hazards). -/
inductive ResetKind where
  | powerOn
  | manual
  deriving DecidableEq, Repr

/-- What the environment presents at one instruction boundary (R403, R409, 60_exceptions). -/
inductive Input where
  /-- Nothing. -/
  | quiet
  /-- One interrupt request. -/
  | request (irq : IrqRequest)
  /-- A reset. -/
  | reset (kind : ResetKind)
  deriving DecidableEq, Repr

/-! ### Free values

No constant below has a body: a statement proved of the model holds whatever they are. -/

/-- P7 where no value is given (D12; U12, 93_implementation_defined). -/
opaque Config.fmacFused : Bool

/-- P11 where no value is given (D18; U8). -/
opaque Config.macwOvfSetsMachLsb : Bool

/-- P13 where no value is given (D21; U13). -/
opaque Config.floatClearsCause : Bool

/-- P4 `STACKED_PC_FPU` where no value is given (D4; U10). -/
opaque Config.stackedPcFpu : StackedPcPlain

/-- P4 `STACKED_PC_FPU` of a slot instruction where no value is given (D4; U10). -/
opaque Config.stackedPcFpuSlot : StackedPcSlot

/-- The byte a device delivers, by boundary counter, index of the access within the step, and address (U19). -/
opaque Config.deviceByte : Nat → Nat → Nat → Byte

/-- The byte an address holds after a misaligned write around it, by boundary counter and address (U3). -/
opaque Config.misalignedByte : Nat → Nat → Byte

/-- The value of a register after a reset input that the spec calls unknown, by boundary counter and register
(U1; R451). -/
opaque Config.resetWord : Nat → Nat → Word

/-- Whether MAC.L or MAC.W had advanced Rn when its second read failed, by boundary counter (R178). -/
opaque Config.macPointerAdvanced : Nat → Bool

end Sys2Proof
end

