-- ==== Sys2Proof/Machine/Params.lean ====
section
/-! DEFINITION. The values the parameters have at `State.reset`: the spec's defaults (92_eei_decisions), and the
opaque constants of `Config` for those the spec leaves without one.  No statement rests on a value here: the
parameters are fields of the state, and statements hold for all of them. -/

namespace Sys2Proof.Machine

/-- The parameters of a run from `State.reset`.
PRESUMED: the vector numbers and the reset entries (assumptions 4, 13).
DESIGN CHOICE: an empty `memMap`, so that every address is RAM (assumption 17). -/
def defaultParams : Params :=
  { bigEndian := true
    srMask := 0x0FFF0FFF
    vecIllegal := 4
    vecSlotIllegal := 6
    vecAddressError := 9
    vecNmi := 11
    vecUserBreak := 12
    stackedPcIllegal := .self
    stackedPcSlotIllegal := .target
    stackedPcFpu := Config.stackedPcFpu
    stackedPcFpuSlot := Config.stackedPcFpuSlot
    stackedPcAddressError := none
    resetPcPowerOn := 0
    resetSpPowerOn := 1
    resetPcManual := 2
    resetSpManual := 3
    fmacFused := Config.fmacFused
    memMap := []
    fetchCoherent := false
    macwOvfSetsMachLsb := Config.macwOvfSetsMachLsb
    untakenSlotIsSlot := false
    floatClearsCause := Config.floatClearsCause }

/-- The vector number of an FPU exception, fixed by the source: offset H'34 (R402, R408, 60_exceptions). -/
def vecFpu : BitVec 8 := 13

/-- The bits of SR that hold a written value.  R21 bounds `SR_MASK` by H'000003F3 and H'0FFF0FFF, so a parameter
outside the bounds is brought inside: the reserved bits 31-28 and 15-12 never hold a value, and M, Q, I3-I0, S, T
always do (R16, R272). -/
def srWriteMask (p : Params) : Word :=
  (p.srMask &&& 0x0FFF0FFF) ||| 0x000003F3

/-- The kind of an address: the first region of `mem_map` that holds it, and RAM where none does (D8). -/
def regionKind (regions : List Region) (a : Nat) : RegionKind :=
  match regions with
  | [] => .ram
  | r :: rest => if r.base ≤ a ∧ a < r.base + r.size then r.kind else regionKind rest a

end Sys2Proof.Machine
end

