-- ==== Sys2Proof/Machine/State.lean ====
section
/-! DEFINITION. The state of the machine (10_state), the reasons a step can stop, and the state after reset.
Plain data throughout; the accessors stand in `Operands.lean` and `Flags.lean`. -/

namespace Sys2Proof.Machine

/-- What an access to memory is for (R406, 60_exceptions). -/
inductive AccessKind where
  | fetch
  | read
  | write
  deriving DecidableEq, Repr

/-- The reasons a run ends in a fault. -/
inductive Fault where
  /-- A misaligned fetch, read or write (R54, 20_memory), raised by the memory operations of `Ops.lean` while no
  stacked PC for address errors is given, and inside exception entry, TRAPA and RTE in any case.  Safe: the spec
  makes it a fault of the run (R406, R413, 60_exceptions; D7, D13). -/
  | addressError (addr : Word) (kind : AccessKind)
  /-- An access to an address that `mem_map` calls absent, raised by the memory operations.  Safe: the spec makes
  it a fault of the run (D8; U19, 93_implementation_defined). -/
  | absentAddress (addr : Word)
  /-- A write to ROM that `mem_map` makes faulting, raised by the memory operations.  Safe: as the map says (D8). -/
  | readOnlyWrite (addr : Word)
  deriving DecidableEq, Repr

/-- The reasons the model gives no meaning to a step. -/
inductive Refusal where
  /-- An instruction the model has not reached, raised by its arm of `exec`.  Safe: nothing is claimed of it. -/
  | notModelled (mnemonic : String)
  /-- A fetch of a RAM address that the run has stored to while `FETCH_COHERENT` does not hold, raised by the fetch.
  Safe: the spec refuses it (D9; U14, 93_implementation_defined). -/
  | storedCode (addr : Word)
  deriving DecidableEq, Repr

/-- The pending delayed branch (R33, 10_state). -/
inductive Slot where
  /-- The next instruction is an ordinary one. -/
  | none
  /-- The next instruction is the slot instruction of a taken delayed branch to `target`. -/
  | pending (target : Word)
  /-- The next instruction follows a not-taken BF/S or BT/S and counts as a slot instruction; arises only under
  the parameter `UNTAKEN_SLOT_IS_SLOT` (R246, 44_branch). -/
  | untaken
  deriving DecidableEq, Repr

/-- The processing state (R35, 10_state). -/
inductive ProcState where
  /-- Program execution. -/
  | run
  /-- Sleep mode, entered by SLEEP (R290, 45_system_control). -/
  | sleep
  deriving DecidableEq, Repr

/-- Everything the spec gives the machine (10_state section 1), the implementation parameters, the environment's
inputs to come, and two fields of the model's own (`stored`, `tick`). -/
structure State where
  /-- R0 to R15 (R10, R11, R12). -/
  regs : Vector Word 16
  /-- PC, the address of the instruction to execute (R24, R25). -/
  pc : Word
  /-- SR (R16 to R21). -/
  sr : Word
  /-- GBR (R14). -/
  gbr : Word
  /-- VBR (R15). -/
  vbr : Word
  /-- MACH (R22). -/
  mach : Word
  /-- MACL (R22). -/
  macl : Word
  /-- PR (R23). -/
  pr : Word
  /-- FR0 to FR15 (R27). -/
  fregs : Vector Word 16
  /-- FPUL (R28). -/
  fpul : Word
  /-- FPSCR (R29 to R31). -/
  fpscr : Word
  /-- Memory (R32; R50, 20_memory). -/
  mem : Memory
  /-- The pending delayed branch (R33). -/
  slot : Slot
  /-- Interrupt inhibit for one instruction (R34). -/
  inhibit : Bool
  /-- The processing state (R35). -/
  proc : ProcState
  /-- FPU module stop (R37). -/
  fpuStopped : Bool
  /-- The implementation parameters (00_scope section 4). -/
  params : Params
  /-- What the environment presents at the coming boundaries, first first (R409, 60_exceptions; assumption 11). -/
  inputs : List Input
  /-- The model's own: the RAM addresses stored to, rising, kept only while `FETCH_COHERENT` does not hold (R67,
  20_memory; assumption 18). -/
  stored : List Nat
  /-- The model's own: the number of boundaries passed, which picks the free values of a step (assumption 42). -/
  tick : Nat
  deriving DecidableEq, Repr

/-- The outcome of a step of this machine. -/
abbrev Result := Host.Outcome State Fault Refusal

/-- The machine right after a power-on reset with blank memory (R38, 10_state; R450, R451, 70_reset_and_hazards).
SR.I = 15 and its reserved bits 0; VBR = 0; FPSCR = H'00040001; PC and R15 as the blank vector table at address 0
gives them.
DESIGN CHOICE, unsafe: every register the spec calls undefined is 0 here (assumption 14). -/
def State.reset : State :=
  { regs := Vector.replicate 16 0
    pc := 0
    sr := 0x000000F0
    gbr := 0
    vbr := 0
    mach := 0
    macl := 0
    pr := 0
    fregs := Vector.replicate 16 0
    fpul := 0
    fpscr := 0x00040001
    mem := []
    slot := .none
    inhibit := false
    proc := .run
    fpuStopped := false
    params := defaultParams
    inputs := []
    stored := []
    tick := 0 }

end Sys2Proof.Machine
end

