-- ==== Sys2Proof/Machine/Flags.lean ====
section
/-! DEFINITION. The fields of SR (R16 to R21, 10_state) and of FPSCR (R29 to R31), and the carry, borrow and overflow
computations (R151, 41_arithmetic). -/

namespace Sys2Proof.Machine

/-! ### SR -/

/-- The T bit, SR bit 0 (R17). -/
def State.t (s : State) : Bool := s.sr.getLsbD 0

/-- The S bit, SR bit 1 (R18). -/
def State.sBit (s : State) : Bool := s.sr.getLsbD 1

/-- The interrupt mask I3-I0, SR bits 7-4 (R20). -/
def State.imask (s : State) : BitVec 4 := s.sr.extractLsb' 4 4

/-- The Q bit, SR bit 8 (R19). -/
def State.q (s : State) : Bool := s.sr.getLsbD 8

/-- The M bit, SR bit 9 (R19). PRESUMED: its position (assumption 2). -/
def State.m (s : State) : Bool := s.sr.getLsbD 9

/-- Write T and no other bit (R17). -/
def State.setT (s : State) (b : Bool) : State := { s with sr := setBit s.sr 0 b }

/-- Write Q and no other bit (R19). -/
def State.setQ (s : State) (b : Bool) : State := { s with sr := setBit s.sr 8 b }

/-- Write M and no other bit (R19). -/
def State.setM (s : State) (b : Bool) : State := { s with sr := setBit s.sr 9 b }

/-- Write I3-I0 and no other bit (R416, 60_exceptions). -/
def State.setImask (s : State) (level : BitVec 4) : State :=
  { s with sr := (s.sr &&& 0xFFFFFF0F) ||| (level.setWidth 32 <<< 4) }

/-- Load SR: only the bits of `SR_MASK` take the value, every other bit becomes 0 (R21; R272, 45_system_control). -/
def State.writeSr (s : State) (v : Word) : State := { s with sr := v &&& srWriteMask s.params }

/-! ### FPSCR -/

/-- Cause of an invalid operation, FPSCR bit 16 (R29). -/
def State.cv (s : State) : Bool := s.fpscr.getLsbD 16

/-- Cause of a division by zero, FPSCR bit 15 (R29). -/
def State.cz (s : State) : Bool := s.fpscr.getLsbD 15

/-- Enable of the invalid operation exception, FPSCR bit 11 (R29). -/
def State.ev (s : State) : Bool := s.fpscr.getLsbD 11

/-- Enable of the division-by-zero exception, FPSCR bit 10 (R29). -/
def State.ez (s : State) : Bool := s.fpscr.getLsbD 10

/-- Flag of an invalid operation, FPSCR bit 6 (R29). -/
def State.fv (s : State) : Bool := s.fpscr.getLsbD 6

/-- Flag of a division by zero, FPSCR bit 5 (R29). -/
def State.fz (s : State) : Bool := s.fpscr.getLsbD 5

/-- The value FPSCR takes when `v` is written: CV, CZ, EV, EZ, FV, FZ from `v`, DN = 1, RM = 01, 0 elsewhere (R30;
R361, 47_fpu_cpu). -/
def fpscrValue (v : Word) : Word := (v &&& 0x00018C60) ||| 0x00040001

/-- Load FPSCR (R30). -/
def State.writeFpscr (s : State) (v : Word) : State := { s with fpscr := fpscrValue v }

/-- `clear_cause_VZ`: CV and CZ become 0 (R314, 46_floating_point). -/
def State.clearCause (s : State) : State := { s with fpscr := setBit (setBit s.fpscr 16 false) 15 false }

/-- `set_V`: CV and FV become 1 (R315). -/
def State.setInvalid (s : State) : State := { s with fpscr := setBit (setBit s.fpscr 16 true) 6 true }

/-- `set_Z`: CZ and FZ become 1 (R316). -/
def State.setDivZero (s : State) : State := { s with fpscr := setBit (setBit s.fpscr 15 true) 5 true }

/-! ### Carry, borrow, overflow (R151) -/

/-- The carry of `a + b + c`. -/
def carryOf (a b : Word) (c : Bool) : Bool := decide (2 ^ 32 ≤ a.toNat + b.toNat + bitNat c)

/-- The borrow of `a - b - c`. -/
def borrowOf (a b : Word) (c : Bool) : Bool := decide (a.toNat < b.toNat + bitNat c)

/-- Signed overflow of `a + b`: operands of one sign and a result of the other. -/
def addOverflow (a b : Word) : Bool := a.msb == b.msb && (a + b).msb != a.msb

/-- Signed overflow of `a - b`: operands of different signs and a result whose sign differs from that of `a`. -/
def subOverflow (a b : Word) : Bool := a.msb != b.msb && (a - b).msb != a.msb

end Sys2Proof.Machine
end

