-- ==== Sys2Proof/Machine/Operands.lean ====
section
/-! DEFINITION. Register operands (R10, R27, 10_state) and the addressing modes (R85, R86, 30_encoding). -/

namespace Sys2Proof.Machine

/-! ### Registers -/

/-- `R[n]`: the content of a general register (R10). -/
def State.reg (s : State) (n : RegNum) : Word := s.regs[n.toNat]'(n.isLt)

/-- `R[n] <- v` (R10): all sixteen registers are writable. -/
def State.setReg (s : State) (n : RegNum) (v : Word) : State := { s with regs := s.regs.set n.toNat v n.isLt }

/-- `FR[n]`: the raw content of a floating-point register (R27). -/
def State.freg (s : State) (n : FRegNum) : Word := s.fregs[n.toNat]'(n.isLt)

/-- `FR[n] <- v` (R27). -/
def State.setFreg (s : State) (n : FRegNum) (v : Word) : State :=
  { s with fregs := s.fregs.set n.toNat v n.isLt }

/-- The number of R15, the stack pointer (R12). -/
def spNum : RegNum := 15

/-! ### Immediates and displacements (R87) -/

/-- A 4-bit displacement zero-extended and scaled by the operand size. -/
def scaledDisp4 (disp : BitVec 4) (size : Word) : Word := disp.setWidth 32 * size

/-- An 8-bit displacement zero-extended and scaled by the operand size. -/
def scaledDisp8 (disp : BitVec 8) (size : Word) : Word := disp.setWidth 32 * size

/-- An 8-bit branch displacement sign-extended and doubled. -/
def branchDisp8 (disp : BitVec 8) : Word := disp.signExtend 32 * 2

/-- A 12-bit branch displacement sign-extended and doubled. -/
def branchDisp12 (disp : BitVec 12) : Word := disp.signExtend 32 * 2

/-! ### Effective addresses (R85), modulo 2^32 -/

/-- `@(disp:4,Rn)`. -/
def State.eaDisp (s : State) (n : RegNum) (disp : BitVec 4) (size : Word) : Word :=
  s.reg n + scaledDisp4 disp size

/-- `@(R0,Rn)`. -/
def State.eaIndexed (s : State) (n : RegNum) : Word := s.reg n + s.reg 0

/-- `@(disp:8,GBR)`. -/
def State.eaGbr (s : State) (disp : BitVec 8) (size : Word) : Word := s.gbr + scaledDisp8 disp size

/-- `@(R0,GBR)`. -/
def State.eaGbrIndexed (s : State) : Word := s.gbr + s.reg 0

/-- `@-Rn`: the address of the access, which is also the new value of Rn. -/
def State.eaPreDec (s : State) (n : RegNum) (size : Word) : Word := s.reg n - size

/-- The PC operand: `pc + 4`, and in the slot of a taken delayed branch its target plus 2 (R26, 10_state; R101,
R104, 40_data_transfer).  DESIGN CHOICE (assumption 45): in the slot of a branch to an odd target it is odd, so that
MOV.W `@(disp,PC)` there raises the address error of R54, although R106 calls the operand always even and R245 lets
the slot execute normally. -/
def State.pcOperand (s : State) : Word :=
  match s.slot with
  | .pending target => target + 2
  | _ => s.pc + 4

/-- `@(disp:8,PC)` of a word. -/
def State.eaPcWord (s : State) (disp : BitVec 8) : Word := s.pcOperand + scaledDisp8 disp 2

/-- `@(disp:8,PC)` of a longword, and MOVA: PC with its low two bits cleared. -/
def State.eaPcLong (s : State) (disp : BitVec 8) : Word := (s.pcOperand &&& 0xFFFFFFFC) + scaledDisp8 disp 4

/-- The target of BF, BT, BF/S and BT/S (R242, 44_branch). -/
def State.branchTarget8 (s : State) (disp : BitVec 8) : Word := s.pc + 4 + branchDisp8 disp

/-- The target of BRA and BSR (R242). -/
def State.branchTarget12 (s : State) (disp : BitVec 12) : Word := s.pc + 4 + branchDisp12 disp

/-- The target of BRAF and BSRF (R242). -/
def State.branchTargetReg (s : State) (m : RegNum) : Word := s.pc + 4 + s.reg m

end Sys2Proof.Machine
end

