-- ==== Sys2Proof/Machine/Ops.lean ====
section
/-! DEFINITION. The shared operations: memory accesses (20_memory), ending an instruction (44_branch section 1), and
taking an exception and returning from one (60_exceptions section 5). -/

namespace Sys2Proof.Machine

/-! ### Memory accesses -/

/-- Why an access did not happen. -/
inductive MemErr where
  /-- A word access at an odd address or a longword access at an address that is no multiple of 4 (R54). -/
  | misaligned (addr : Word) (kind : AccessKind) (width : Nat)
  /-- An access to an address `mem_map` calls absent (D8; U19). -/
  | absent (addr : Word)
  /-- A write to ROM that `mem_map` makes faulting (D8). -/
  | readOnly (addr : Word)
  deriving DecidableEq, Repr

/-- What an address holds (P8 `mem_map`, D8). -/
def State.kindAt (s : State) (a : Word) : RegionKind := regionKind s.params.memMap a.toNat

/-- Whether one of the `width` bytes from `a` lies in a region of the given kind. -/
def State.touches (s : State) (kind : RegionKind) (width : Nat) (a : Word) : Bool :=
  (List.range width).any fun i => s.kindAt (a + BitVec.ofNat 32 i) == kind

/-- Why an access of `width` bytes at `a` cannot happen: first its alignment (R54), then whether its addresses
exist and, for a write, whether ROM faults it (D8). -/
def State.accessError (s : State) (kind : AccessKind) (width : Nat) (a : Word) : Option MemErr :=
  if a.toNat % width ≠ 0 then some (.misaligned a kind width)
  else if s.touches .absent width a then some (.absent a)
  else if kind = .write ∧ s.touches .romFault width a then some (.readOnly a)
  else none

/-- The byte that access `k` of a step reads at an address: what memory holds, or any value for a device (R60, R63;
U19).  Access 0 is the fetch. -/
def State.byteAt (s : State) (k : Nat) (a : Word) : Byte :=
  match s.kindAt a with
  | .device => Config.deviceByte s.tick k a.toNat
  | _ => s.mem.byteAt a.toNat

/-- The word at an address, its bytes in the order of R52. -/
def State.halfAt (s : State) (k : Nat) (a : Word) : Half :=
  join16 s.params.bigEndian (s.byteAt k a) (s.byteAt k (a + 1))

/-- The longword at an address, its bytes in the order of R52. -/
def State.longAt (s : State) (k : Nat) (a : Word) : Word :=
  join32 s.params.bigEndian (s.byteAt k a) (s.byteAt k (a + 1)) (s.byteAt k (a + 2)) (s.byteAt k (a + 3))

/-- `MemRead(a, 1)` as access `k` (00_scope section 5.3). -/
def State.loadByte (s : State) (k : Nat) (a : Word) : Except MemErr Byte :=
  match s.accessError .read 1 a with
  | some e => .error e
  | none => .ok (s.byteAt k a)

/-- `MemRead(a, 2)` as access `k`. -/
def State.loadHalf (s : State) (k : Nat) (a : Word) : Except MemErr Half :=
  match s.accessError .read 2 a with
  | some e => .error e
  | none => .ok (s.halfAt k a)

/-- `MemRead(a, 4)` as access `k`. -/
def State.loadLong (s : State) (k : Nat) (a : Word) : Except MemErr Word :=
  match s.accessError .read 4 a with
  | some e => .error e
  | none => .ok (s.longAt k a)

/-- Write one byte: into RAM only; a device or ROM keeps the model's memory as it is (D8).  While `FETCH_COHERENT`
does not hold, the address is kept in `stored` (R67).  DESIGN CHOICE (assumption 47): only a store that RAM takes is
such a store into code; an ignored write to ROM and a write to a device are not kept there. -/
def State.putByte (s : State) (a : Word) (v : Byte) : State :=
  match s.kindAt a with
  | .ram =>
    { s with
      mem := s.mem.setByte a.toNat v
      stored := if s.params.fetchCoherent then s.stored else insertAddr s.stored a.toNat }
  | _ => s

/-- Write the two bytes of a word in the order of R52. -/
def State.putHalf (s : State) (a : Word) (v : Half) : State :=
  (s.putByte a (byteOf16 s.params.bigEndian v 0)).putByte (a + 1) (byteOf16 s.params.bigEndian v 1)

/-- Write the four bytes of a longword in the order of R52. -/
def State.putLong (s : State) (a : Word) (v : Word) : State :=
  (((s.putByte a (byteOf32 s.params.bigEndian v 0)).putByte (a + 1) (byteOf32 s.params.bigEndian v 1)).putByte
    (a + 2) (byteOf32 s.params.bigEndian v 2)).putByte (a + 3) (byteOf32 s.params.bigEndian v 3)

/-- `MemWrite(a, 1, v)` (00_scope section 5.3). -/
def State.storeByte (s : State) (a : Word) (v : Byte) : Except MemErr State :=
  match s.accessError .write 1 a with
  | some e => .error e
  | none => .ok (s.putByte a v)

/-- `MemWrite(a, 2, v)`. -/
def State.storeHalf (s : State) (a : Word) (v : Half) : Except MemErr State :=
  match s.accessError .write 2 a with
  | some e => .error e
  | none => .ok (s.putHalf a v)

/-- `MemWrite(a, 4, v)`. -/
def State.storeLong (s : State) (a : Word) (v : Word) : Except MemErr State :=
  match s.accessError .write 4 a with
  | some e => .error e
  | none => .ok (s.putLong a v)

/-! ### Ending an instruction -/

/-- The address after this instruction: the target of the pending delayed branch, or `pc + 2` (R240, R241). -/
def State.nextPc (s : State) : Word :=
  match s.slot with
  | .pending target => target
  | _ => s.pc + 2

/-- An instruction that is no branch has executed: the next address, no pending branch, interrupts no longer held
off (R240, R241, 44_branch; R456, 70_reset_and_hazards). -/
def State.advance (s : State) : State := { s with pc := s.nextPc, slot := .none, inhibit := false }

/-- End an instruction that is neither a branch nor interrupt-disabled. -/
def finish (s : State) : Result := .next s.advance

/-- End an interrupt-disabled instruction: the next instruction runs before an interrupt is accepted (R456). -/
def finishInhibit (s : State) : Result := .next { s.advance with inhibit := true }

/-- `delayed_branch(target)`: the slot instruction at `pc + 2` executes next, then the one at the target (R241). -/
def delayedBranch (target : Word) (s : State) : Result :=
  .next { s with pc := s.pc + 2, slot := .pending target, inhibit := false }

/-- `pc <- target`, not delayed (R247). -/
def jumpTo (target : Word) (s : State) : Result :=
  .next { s with pc := target, slot := .none, inhibit := false }

/-- A not-taken BF/S or BT/S: the next instruction is an ordinary one at `pc + 2`, or counts as a slot instruction
under `UNTAKEN_SLOT_IS_SLOT` (R246). -/
def untakenBranch (s : State) : Result :=
  .next { s with pc := s.pc + 2, slot := if s.params.untakenSlotIsSlot then .untaken else .none, inhibit := false }

/-! ### Taking an exception -/

/-- The fault a failed access makes of the run (R406, R413; D8). -/
def MemErr.toFault (e : MemErr) : Fault :=
  match e with
  | .misaligned a kind _ => .addressError a kind
  | .absent a => .absentAddress a
  | .readOnly a => .readOnlyWrite a

/-- The address of entry `v` of the vector table: VBR + 4 * v (R402). -/
def State.vectorAddr (s : State) (v : BitVec 8) : Word := s.vbr + v.setWidth 32 * 4

/-- The entry sequence of every exception and interrupt (R410): push SR at R15 - 4, push the stacked PC at R15 - 8,
lower R15 by 8, for an interrupt set I3-I0 to its level (R416), drop the pending branch and the interrupt inhibit,
leave sleep, and continue at the address in the vector table (R412), read as access 3 of the step.  A failed access
inside it faults the run (R413). -/
def enterException (vector : BitVec 8) (stackedPc : Word) (level : Option (BitVec 4)) (s : State) : Result :=
  match s.storeLong (s.reg spNum - 4) s.sr with
  | .error e => .fault e.toFault
  | .ok s1 =>
    match s1.storeLong (s.reg spNum - 8) stackedPc with
    | .error e => .fault e.toFault
    | .ok s2 =>
      match s2.loadLong 3 (s.vectorAddr vector) with
      | .error e => .fault e.toFault
      | .ok handler =>
        let s3 := s2.setReg spNum (s.reg spNum - 8)
        let s4 := match level with
          | some l => s3.setImask l
          | none => s3
        .next { s4 with pc := handler, slot := .none, inhibit := false, proc := .run }

/-- The stacked PC of an exception of an instruction outside a delay slot. -/
def State.plainStackedPc (s : State) (choice : StackedPcPlain) : Word :=
  match choice with
  | .self => s.pc
  | .next => s.pc + 2

/-- The stacked PC of an exception of a slot instruction whose delayed branch goes to `target` (R405). -/
def State.slotStackedPc (s : State) (choice : StackedPcSlot) (target : Word) : Word :=
  match choice with
  | .target => target
  | .branch => s.pc - 2
  | .self => s.pc

/-- The stacked PC of an exception of the instruction at `pc`, by whether it stands in a delay slot (R411).  After a
not-taken BF/S or BT/S that counts as a delayed branch, the address control goes to is `pc + 2`
(DESIGN CHOICE, assumption 23). -/
def State.stackedPc (s : State) (plain : StackedPcPlain) (slot : StackedPcSlot) : Word :=
  match s.slot with
  | .none => s.plainStackedPc plain
  | .pending target => s.slotStackedPc slot target
  | .untaken => s.slotStackedPc slot (s.pc + 2)

/-- The illegal instruction exceptions: general outside a delay slot (R404), slot illegal inside one (R405). -/
def raiseIllegal (s : State) : Result :=
  enterException (if s.slot = .none then s.params.vecIllegal else s.params.vecSlotIllegal)
    (s.stackedPc s.params.stackedPcIllegal s.params.stackedPcSlotIllegal) none s

/-- The FPU exception (R408): vector 13, FPSCR as the faulting instruction has set it. -/
def raiseFpu (s : State) : Result :=
  enterException vecFpu (s.stackedPc s.params.stackedPcFpu s.params.stackedPcFpuSlot) none s

/-- One longword whose four bytes hold any value (R55; U3). -/
def State.scrambleLong (s : State) (a : Word) : State :=
  let byte (i : Nat) : Byte := Config.misalignedByte s.tick (a + BitVec.ofNat 32 i).toNat
  (((s.putByte a (byte 0)).putByte (a + 1) (byte 1)).putByte (a + 2) (byte 2)).putByte (a + 3) (byte 3)

/-- Memory after a misaligned write: every byte of the aligned longwords it reaches into holds any value (R55, R406;
U3, 93_implementation_defined). -/
def State.scrambleAround (s : State) (a : Word) (width : Nat) : State :=
  (s.scrambleLong (a &&& 0xFFFFFFFC)).scrambleLong ((a + BitVec.ofNat 32 (width - 1)) &&& 0xFFFFFFFC)

/-- A failed access of an instruction (R406).  A misaligned one faults the run unless a stacked PC for address errors
is given (P4); then the exception is entered, after a write with the bytes around it unknown.  The other errors
fault the run (D8). -/
def raiseMem (e : MemErr) (s : State) : Result :=
  match e, s.params.stackedPcAddressError with
  | .misaligned a kind width, some (plain, slot) =>
    enterException s.params.vecAddressError (s.stackedPc plain slot) none
      (if kind = .write then s.scrambleAround a width else s)
  | _, _ => .fault e.toFault

/-- Continue with what a load delivered, or raise its error. -/
def withLoad {α : Type} (loaded : Except MemErr α) (s : State) (k : α → Result) : Result :=
  match loaded with
  | .ok v => k v
  | .error e => raiseMem e s

/-- Continue with the state after a store to `s`, or raise its error in `s`. -/
def withStore (stored : Except MemErr State) (s : State) (k : State → Result) : Result :=
  match stored with
  | .ok s' => k s'
  | .error e => raiseMem e s

/-- An instruction that rewrites PC is illegal in a delay slot (R243, 44_branch; R405). -/
def guardSlot (s : State) (r : Result) : Result :=
  match s.slot with
  | .none => r
  | _ => raiseIllegal s

/-- An instruction that needs the FPU is illegal while the FPU is stopped (R91, 30_encoding). -/
def guardFpu (s : State) (r : Result) : Result :=
  if s.fpuStopped then raiseIllegal s else r

/-! ### Returning from an exception -/

/-- The return from an exception (R288, 45_system_control; R417): pop PC, then SR under `SR_MASK`, raise R15 by 8,
and branch delayed.  A failed pop faults the run (R413). -/
def returnFromException (s : State) : Result :=
  match s.loadLong 1 (s.reg spNum) with
  | .error e => .fault e.toFault
  | .ok newPc =>
    match s.loadLong 2 (s.reg spNum + 4) with
    | .error e => .fault e.toFault
    | .ok newSr => delayedBranch newPc ((s.setReg spNum (s.reg spNum + 8)).writeSr newSr)

end Sys2Proof.Machine
end

