-- ==== Sys2Proof/Machine/Boundary.lean ====
section
/-! DEFINITION. One instruction boundary (R403, 60_exceptions): reset, interrupt acceptance, sleep, fetch and decode,
then the execution of the instruction, which `Step.lean` supplies. -/

namespace Sys2Proof.Machine

/-- A boundary passes: its input is consumed, and the counter of the free values moves on. -/
def State.beginStep (s : State) : State := { s with inputs := s.inputs.tail, tick := s.tick + 1 }

/-! ### Reset -/

/-- The vector table entry of the initial PC (P6). -/
def resetPcEntry (p : Params) (kind : ResetKind) : BitVec 8 :=
  match kind with
  | .powerOn => p.resetPcPowerOn
  | .manual => p.resetPcManual

/-- The vector table entry of the initial R15 (P6). -/
def resetSpEntry (p : Params) (kind : ResetKind) : BitVec 8 :=
  match kind with
  | .powerOn => p.resetSpPowerOn
  | .manual => p.resetSpManual

/-- The registers after a reset input (R451, 70_reset_and_hazards): VBR, SR.I, the reserved bits of SR and FPSCR as
the spec says; every register it calls undefined, and every other bit SR holds, a free value (U1).  Whatever was in
progress is abandoned; memory is as it was.  A run starts from reset, so no address counts as stored to
(assumption 18). -/
def State.resetRegisters (s : State) : State :=
  { s with
    regs := Vector.ofFn fun i => Config.resetWord s.tick i.val
    sr := 0x000000F0 ||| (Config.resetWord s.tick 16 &&& srWriteMask s.params)
    gbr := Config.resetWord s.tick 17
    vbr := 0
    mach := Config.resetWord s.tick 18
    macl := Config.resetWord s.tick 19
    pr := Config.resetWord s.tick 20
    fregs := Vector.ofFn fun i => Config.resetWord s.tick (32 + i.val)
    fpul := Config.resetWord s.tick 21
    fpscr := 0x00040001
    slot := .none
    inhibit := false
    proc := .run
    fpuStopped := false
    stored := [] }

/-- The reset sequence (R451): the registers, then PC and R15 from the vector table at address 0.  A failed read
faults the run. -/
def enterReset (kind : ResetKind) (s : State) : Result :=
  let s1 := s.resetRegisters
  match s1.loadLong 1 (s1.vectorAddr (resetPcEntry s.params kind)) with
  | .error e => .fault e.toFault
  | .ok pc =>
    match s1.loadLong 2 (s1.vectorAddr (resetSpEntry s.params kind)) with
    | .error e => .fault e.toFault
    | .ok sp => .next { s1.setReg spNum sp with pc := pc }

/-! ### Interrupts -/

/-- The level an accepted request puts into I3-I0: 15 for NMI (R416). -/
def irqLevel (irq : IrqRequest) : BitVec 4 :=
  match irq with
  | .nmi => 15
  | .userBreak level => level
  | .maskable level _ => level

/-- The vector number of a request (R402, R409). -/
def irqVector (irq : IrqRequest) (p : Params) : BitVec 8 :=
  match irq with
  | .nmi => p.vecNmi
  | .userBreak _ => p.vecUserBreak
  | .maskable _ vector => vector

/-- The condition of acceptance: NMI, or a level above I3-I0 as unsigned numbers (R415). -/
def irqPasses (irq : IrqRequest) (mask : BitVec 4) : Bool :=
  match irq with
  | .nmi => true
  | .userBreak level => mask.ult level
  | .maskable level _ => mask.ult level

/-- Whether a request is accepted at this boundary: not before a slot instruction and not after an
interrupt-disabled instruction (R414, R455, R456), and above the mask (R415). -/
def State.accepts (s : State) (irq : IrqRequest) : Bool :=
  decide (s.slot = .none) && !s.inhibit && irqPasses irq s.imask

/-- Interrupt entry: the stacked PC is that of the next instruction not yet executed (R411), and I3-I0 become the
level of the request (R416). -/
def enterInterrupt (irq : IrqRequest) (s : State) : Result :=
  enterException (irqVector irq s.params) s.pc (some (irqLevel irq)) s

/-! ### Fetch and the boundary itself -/

/-- Whether the run has stored to a byte of the instruction at `pc` while `FETCH_COHERENT` does not hold (R67). -/
def State.staleCode (s : State) : Bool :=
  !s.params.fetchCoherent && (s.stored.contains s.pc.toNat || s.stored.contains (s.pc + 1).toNat)

/-- Fetch, decode and execute the instruction at `pc` (R403, steps 3 to 5): an odd `pc` is an address error (R406),
an unassigned code an illegal instruction (R404, R405). -/
def runInstr (exec : Instr → State → Result) (s : State) : Result :=
  match s.accessError .fetch 2 s.pc with
  | some e => raiseMem e s
  | none =>
    if s.staleCode then .refused (.storedCode s.pc)
    else
      match decode (s.halfAt 0 s.pc) with
      | .ok i => exec i s
      | .error _ => raiseIllegal s

/-- A boundary at which no reset and no interrupt is accepted: stay asleep, or run the instruction (R403, step 2). -/
def sleepOrRun (exec : Instr → State → Result) (s : State) : Result :=
  match s.proc with
  | .sleep => .next s
  | .run => runInstr exec s

/-- One step (R403): a reset overrides everything, then an interrupt that is accepted, then sleep or the
instruction.  `exec` is the meaning of an instruction. -/
def stepWith (exec : Instr → State → Result) (s : State) : Result :=
  match s.inputs.head? with
  | some (.reset kind) => enterReset kind s.beginStep
  | some (.request irq) => if s.accepts irq then enterInterrupt irq s.beginStep else sleepOrRun exec s.beginStep
  | _ => sleepOrRun exec s.beginStep

/-! ### Loading from outside -/

/-- Place a code at `pc` from outside the machine, in the byte order of R52: no store of the run, so neither address
counts as stored to. -/
def placeCode (s : State) (code : Half) : State :=
  { s with
    mem := (s.mem.setByte s.pc.toNat (byteOf16 s.params.bigEndian code 0)).setByte (s.pc + 1).toNat
      (byteOf16 s.params.bigEndian code 1)
    stored := s.stored.filter fun a => a ≠ s.pc.toNat ∧ a ≠ (s.pc + 1).toNat }

end Sys2Proof.Machine
end

