-- ==== Sys2Proof/Machine/Arithmetic.lean ====
section
/-! DEFINITION. The arithmetic instructions (41_arithmetic, R155 to R187).  Common behaviour: R150. -/

namespace Sys2Proof.Machine

/-! ### Add -/

/-- `ADD Rm,Rn` (R155). -/
def execAddReg (m n : RegNum) (s : State) : Result := finish (s.setReg n (s.reg n + s.reg m))

/-- `ADD #imm,Rn` (R156). -/
def execAddImm (imm : BitVec 8) (n : RegNum) (s : State) : Result := finish (s.setReg n (s.reg n + sext8 imm))

/-- `ADDC Rm,Rn`: T is the carry (R157). -/
def execAddc (m n : RegNum) (s : State) : Result :=
  finish ((s.setReg n (s.reg n + s.reg m + bitWord s.t)).setT (carryOf (s.reg n) (s.reg m) s.t))

/-- `ADDV Rm,Rn`: T is the signed overflow (R158). -/
def execAddv (m n : RegNum) (s : State) : Result :=
  finish ((s.setReg n (s.reg n + s.reg m)).setT (addOverflow (s.reg n) (s.reg m)))

/-! ### Compare: T is the result and nothing else changes -/

/-- `CMP/EQ #imm,R0` (R159). -/
def execCmpEqImm (imm : BitVec 8) (s : State) : Result := finish (s.setT (s.reg 0 == sext8 imm))

/-- `CMP/EQ Rm,Rn` (R160). -/
def execCmpEq (m n : RegNum) (s : State) : Result := finish (s.setT (s.reg n == s.reg m))

/-- `CMP/HS Rm,Rn`: unsigned `>=` (R161). -/
def execCmpHs (m n : RegNum) (s : State) : Result := finish (s.setT ((s.reg m).ule (s.reg n)))

/-- `CMP/GE Rm,Rn`: signed `>=` (R162). -/
def execCmpGe (m n : RegNum) (s : State) : Result := finish (s.setT ((s.reg m).sle (s.reg n)))

/-- `CMP/HI Rm,Rn`: unsigned `>` (R163). -/
def execCmpHi (m n : RegNum) (s : State) : Result := finish (s.setT ((s.reg m).ult (s.reg n)))

/-- `CMP/GT Rm,Rn`: signed `>` (R164). -/
def execCmpGt (m n : RegNum) (s : State) : Result := finish (s.setT ((s.reg m).slt (s.reg n)))

/-- `CMP/PL Rn`: signed `> 0` (R165). -/
def execCmpPl (n : RegNum) (s : State) : Result := finish (s.setT ((0 : Word).slt (s.reg n)))

/-- `CMP/PZ Rn`: signed `>= 0` (R166). -/
def execCmpPz (n : RegNum) (s : State) : Result := finish (s.setT ((0 : Word).sle (s.reg n)))

/-- Whether two longwords agree in at least one of their four bytes (R167). -/
def someByteEqual (a b : Word) : Bool :=
  a.extractLsb' 24 8 == b.extractLsb' 24 8 || a.extractLsb' 16 8 == b.extractLsb' 16 8
    || a.extractLsb' 8 8 == b.extractLsb' 8 8 || a.extractLsb' 0 8 == b.extractLsb' 0 8

/-- `CMP/STR Rm,Rn` (R167). -/
def execCmpStr (m n : RegNum) (s : State) : Result := finish (s.setT (someByteEqual (s.reg n) (s.reg m)))

/-! ### Division steps -/

/-- The dividend of a division step: Rn shifted left by one, T entering at bit 0 (R168). -/
def div1Shifted (rn : Word) (t : Bool) : Word := rn <<< 1 ||| bitWord t

/-- The remainder of a division step: the divisor subtracted where Q = M and added where not (R168). -/
def div1Result (x divisor : Word) (subtract : Bool) : Word := if subtract then x - divisor else x + divisor

/-- The borrow or carry of a division step (R168). -/
def div1Carry (x divisor : Word) (subtract : Bool) : Bool :=
  if subtract then borrowOf x divisor false else carryOf x divisor false

/-- `DIV1 Rm,Rn` (R168).  Rn is shifted in place before Rm is read, so with m = n the divisor is the shifted
value. -/
def execDiv1 (m n : RegNum) (s : State) : Result :=
  let x := div1Shifted (s.reg n) s.t
  let divisor := if m = n then x else s.reg m
  let subtract := s.q == s.m
  let q := ((s.reg n).msb ^^ div1Carry x divisor subtract) ^^ s.m
  finish (((s.setReg n (div1Result x divisor subtract)).setQ q).setT (q == s.m))

/-- `DIV0S Rm,Rn` (R169). -/
def execDiv0s (m n : RegNum) (s : State) : Result :=
  finish (((s.setQ (s.reg n).msb).setM (s.reg m).msb).setT ((s.reg m).msb ^^ (s.reg n).msb))

/-- `DIV0U` (R170). -/
def execDiv0u (s : State) : Result := finish (((s.setM false).setQ false).setT false)

/-! ### Multiply -/

/-- Write MACH and MACL with the high and low half of a 64-bit value (R22, 10_state). -/
def State.setMac (s : State) (v : BitVec 64) : State :=
  { s with mach := v.extractLsb' 32 32, macl := v.extractLsb' 0 32 }

/-- The 64-bit accumulator MACH : MACL (R22). -/
def State.mac (s : State) : BitVec 64 := s.mach ++ s.macl

/-- `DMULS.L Rm,Rn`: the exact signed product (R171). -/
def execDmulsL (m n : RegNum) (s : State) : Result :=
  finish (s.setMac (BitVec.ofInt 64 ((s.reg n).toInt * (s.reg m).toInt)))

/-- `DMULU.L Rm,Rn`: the exact unsigned product (R172). -/
def execDmuluL (m n : RegNum) (s : State) : Result :=
  finish (s.setMac (BitVec.ofNat 64 ((s.reg n).toNat * (s.reg m).toNat)))

/-- `MUL.L Rm,Rn`: the low 32 bits of the product into MACL, MACH unchanged (R180). -/
def execMulL (m n : RegNum) (s : State) : Result := finish { s with macl := s.reg n * s.reg m }

/-- `MULS.W Rm,Rn`: signed product of the low words into MACL (R181). -/
def execMulsW (m n : RegNum) (s : State) : Result :=
  finish { s with macl := BitVec.ofInt 32 ((lowHalf (s.reg n)).toInt * (lowHalf (s.reg m)).toInt) }

/-- `MULU.W Rm,Rn`: unsigned product of the low words into MACL (R182). -/
def execMuluW (m n : RegNum) (s : State) : Result :=
  finish { s with macl := BitVec.ofNat 32 ((lowHalf (s.reg n)).toNat * (lowHalf (s.reg m)).toNat) }

/-! ### Multiply and accumulate -/

/-- A value brought into a range. -/
def clampInt (low high v : Int) : Int := if v < low then low else if high < v then high else v

/-- MACH : MACL after MAC.L with operands `a` and `b` (R178): with S = 0 the 64-bit sum modulo 2^64, with S = 1 the
low 48 bits accumulated as a signed number and held between -2^47 and 2^47 - 1 (the description; D17). -/
def macLAccumulate (sat : Bool) (acc : BitVec 64) (a b : Word) : BitVec 64 :=
  if sat then
    BitVec.ofInt 64 (clampInt (-2 ^ 47) (2 ^ 47 - 1) ((acc.extractLsb' 0 48).toInt + a.toInt * b.toInt))
  else acc + BitVec.ofInt 64 (a.toInt * b.toInt)

/-- MACH and MACL after MAC.W with operands `a` and `b` (R179): with S = 0 the 64-bit sum modulo 2^64; with S = 1 the
32-bit accumulation in MACL, held in range, and on overflow bit 0 of MACH set where the parameter
`MACW_OVF_SETS_MACH_LSB` says so (D18). -/
def macWAccumulate (sat setsLsb : Bool) (mach macl : Word) (a b : Half) : BitVec 64 :=
  if sat then
    let sum := macl.toInt + a.toInt * b.toInt
    let held := clampInt (-2 ^ 31) (2 ^ 31 - 1) sum
    (if held ≠ sum ∧ setsLsb then mach ||| 1 else mach) ++ BitVec.ofInt 32 held
  else (mach ++ macl) + BitVec.ofInt 64 (a.toInt * b.toInt)

/-- The state in which the second read of MAC.L or MAC.W fails: Rn has advanced or has not (R178: unspecified). -/
def State.afterFirstMacRead (s : State) (n : RegNum) (size : Word) : State :=
  if Config.macPointerAdvanced s.tick then s.setReg n (s.reg n + size) else s

/-- `MAC.L @Rm+,@Rn+` (R178): (Rn) is read and Rn advanced, then (Rm) through the updated register. -/
def execMacL (m n : RegNum) (s : State) : Result :=
  withLoad (s.loadLong 1 (s.reg n)) s fun a =>
    let s1 := s.setReg n (s.reg n + 4)
    withLoad (s.loadLong 2 (s1.reg m)) (s.afterFirstMacRead n 4) fun b =>
      let s2 := s1.setReg m (s1.reg m + 4)
      finish (s2.setMac (macLAccumulate s.sBit s.mac a b))

/-- `MAC.W @Rm+,@Rn+` (R179). -/
def execMacW (m n : RegNum) (s : State) : Result :=
  withLoad (s.loadHalf 1 (s.reg n)) s fun a =>
    let s1 := s.setReg n (s.reg n + 2)
    withLoad (s.loadHalf 2 (s1.reg m)) (s.afterFirstMacRead n 2) fun b =>
      let s2 := s1.setReg m (s1.reg m + 2)
      finish (s2.setMac (macWAccumulate s.sBit s.params.macwOvfSetsMachLsb s.mach s.macl a b))

/-! ### Decrement and extend -/

/-- `DT Rn`: T is whether the result is zero (R173). -/
def execDt (n : RegNum) (s : State) : Result := finish ((s.setReg n (s.reg n - 1)).setT (s.reg n - 1 == 0))

/-- `EXTS.B Rm,Rn` (R174). -/
def execExtsB (m n : RegNum) (s : State) : Result := finish (s.setReg n (sext8 (lowByte (s.reg m))))

/-- `EXTS.W Rm,Rn` (R175). -/
def execExtsW (m n : RegNum) (s : State) : Result := finish (s.setReg n (sext16 (lowHalf (s.reg m))))

/-- `EXTU.B Rm,Rn` (R176). -/
def execExtuB (m n : RegNum) (s : State) : Result := finish (s.setReg n (s.reg m &&& 0x000000FF))

/-- `EXTU.W Rm,Rn` (R177). -/
def execExtuW (m n : RegNum) (s : State) : Result := finish (s.setReg n (s.reg m &&& 0x0000FFFF))

/-! ### Negate and subtract -/

/-- `NEG Rm,Rn` (R183). -/
def execNeg (m n : RegNum) (s : State) : Result := finish (s.setReg n (0 - s.reg m))

/-- `NEGC Rm,Rn`: T is the borrow of `0 - Rm - T` (R184). -/
def execNegc (m n : RegNum) (s : State) : Result :=
  finish ((s.setReg n (0 - s.reg m - bitWord s.t)).setT (borrowOf 0 (s.reg m) s.t))

/-- `SUB Rm,Rn` (R185). -/
def execSub (m n : RegNum) (s : State) : Result := finish (s.setReg n (s.reg n - s.reg m))

/-- `SUBC Rm,Rn`: T is the borrow (R186). -/
def execSubc (m n : RegNum) (s : State) : Result :=
  finish ((s.setReg n (s.reg n - s.reg m - bitWord s.t)).setT (borrowOf (s.reg n) (s.reg m) s.t))

/-- `SUBV Rm,Rn`: T is the signed overflow (R187). -/
def execSubv (m n : RegNum) (s : State) : Result :=
  finish ((s.setReg n (s.reg n - s.reg m)).setT (subOverflow (s.reg n) (s.reg m)))

end Sys2Proof.Machine
end

