-- ==== Sys2Proof/Machine/Branch.lean ====
section
/-! DEFINITION. The branch instructions (44_branch, R250 to R260).  Each is an illegal slot instruction (R243); none
changes SR or memory (R248). -/

namespace Sys2Proof.Machine

/-- Write PR with the return address of a subroutine call, `pc + 4` (R242). -/
def State.linkPr (s : State) : State := { s with pr := s.pc + 4 }

/-- `BF label`: taken where T = 0, not delayed (R250). -/
def execBf (disp : BitVec 8) (s : State) : Result :=
  guardSlot s (if s.t then finish s else jumpTo (s.branchTarget8 disp) s)

/-- `BF/S label`: delayed where T = 0 (R251, R246). -/
def execBfS (disp : BitVec 8) (s : State) : Result :=
  guardSlot s (if s.t then untakenBranch s else delayedBranch (s.branchTarget8 disp) s)

/-- `BT label`: taken where T = 1, not delayed (R252). -/
def execBt (disp : BitVec 8) (s : State) : Result :=
  guardSlot s (if s.t then jumpTo (s.branchTarget8 disp) s else finish s)

/-- `BT/S label`: delayed where T = 1 (R253, R246). -/
def execBtS (disp : BitVec 8) (s : State) : Result :=
  guardSlot s (if s.t then delayedBranch (s.branchTarget8 disp) s else untakenBranch s)

/-- `BRA label` (R254). -/
def execBra (disp : BitVec 12) (s : State) : Result := guardSlot s (delayedBranch (s.branchTarget12 disp) s)

/-- `BRAF Rm` (R255). -/
def execBraf (m : RegNum) (s : State) : Result := guardSlot s (delayedBranch (s.branchTargetReg m) s)

/-- `BSR label` (R256). -/
def execBsr (disp : BitVec 12) (s : State) : Result := guardSlot s (delayedBranch (s.branchTarget12 disp) s.linkPr)

/-- `BSRF Rm` (R257). -/
def execBsrf (m : RegNum) (s : State) : Result := guardSlot s (delayedBranch (s.branchTargetReg m) s.linkPr)

/-- `JMP @Rm` (R258). -/
def execJmp (m : RegNum) (s : State) : Result := guardSlot s (delayedBranch (s.reg m) s)

/-- `JSR @Rm` (R259). -/
def execJsr (m : RegNum) (s : State) : Result := guardSlot s (delayedBranch (s.reg m) s.linkPr)

/-- `RTS` (R260). -/
def execRts (s : State) : Result := guardSlot s (delayedBranch s.pr s)

end Sys2Proof.Machine
end

