-- ==== Sys2Proof/Machine/DataTransfer.lean ====
section
/-! DEFINITION. The data transfer instructions (40_data_transfer, R105 to R143), over four shared shapes: load into a
register, load with post-increment, store, store with pre-decrement.  Common behaviour: R100. -/

namespace Sys2Proof.Machine

/-! ### Shared shapes -/

/-- Load a byte, sign-extended, into Rn (R102). -/
def loadByteTo (n : RegNum) (a : Word) (s : State) : Result :=
  withLoad (s.loadByte 1 a) s fun b => finish (s.setReg n (sext8 b))

/-- Load a word, sign-extended, into Rn (R102). -/
def loadHalfTo (n : RegNum) (a : Word) (s : State) : Result :=
  withLoad (s.loadHalf 1 a) s fun h => finish (s.setReg n (sext16 h))

/-- Load a longword into Rn. -/
def loadLongTo (n : RegNum) (a : Word) (s : State) : Result :=
  withLoad (s.loadLong 1 a) s fun w => finish (s.setReg n w)

/-- Load a byte from `@Rm+` into Rn: Rm advances by 1 first, so with m = n the loaded value wins (R86, R118). -/
def loadByteInc (m n : RegNum) (s : State) : Result :=
  withLoad (s.loadByte 1 (s.reg m)) s fun b => finish ((s.setReg m (s.reg m + 1)).setReg n (sext8 b))

/-- Load a word from `@Rm+` into Rn (R119). -/
def loadHalfInc (m n : RegNum) (s : State) : Result :=
  withLoad (s.loadHalf 1 (s.reg m)) s fun h => finish ((s.setReg m (s.reg m + 2)).setReg n (sext16 h))

/-- Load a longword from `@Rm+` into Rn (R120). -/
def loadLongInc (m n : RegNum) (s : State) : Result :=
  withLoad (s.loadLong 1 (s.reg m)) s fun w => finish ((s.setReg m (s.reg m + 4)).setReg n w)

/-- Store the low byte of a register (R51). -/
def storeByteFrom (v : Word) (a : Word) (s : State) : Result :=
  withStore (s.storeByte a (lowByte v)) s finish

/-- Store the low word of a register (R51). -/
def storeHalfFrom (v : Word) (a : Word) (s : State) : Result :=
  withStore (s.storeHalf a (lowHalf v)) s finish

/-- Store a register. -/
def storeLongFrom (v : Word) (a : Word) (s : State) : Result :=
  withStore (s.storeLong a v) s finish

/-- Store a byte at `@-Rn`, Rn taking the address after the store; the value is Rm's before it (R86, R115). -/
def storeByteDec (m n : RegNum) (s : State) : Result :=
  withStore (s.storeByte (s.eaPreDec n 1) (lowByte (s.reg m))) s fun s' => finish (s'.setReg n (s.eaPreDec n 1))

/-- Store a word at `@-Rn` (R116). -/
def storeHalfDec (m n : RegNum) (s : State) : Result :=
  withStore (s.storeHalf (s.eaPreDec n 2) (lowHalf (s.reg m))) s fun s' => finish (s'.setReg n (s.eaPreDec n 2))

/-- Store a longword at `@-Rn` (R117). -/
def storeLongDec (v : Word) (n : RegNum) (s : State) : Result :=
  withStore (s.storeLong (s.eaPreDec n 4) v) s fun s' => finish (s'.setReg n (s.eaPreDec n 4))

/-! ### Immediate and PC-relative loads -/

/-- `MOV #imm,Rn`: `R[n] <- sext8(imm)` (R105). -/
def execMovImm (imm : BitVec 8) (n : RegNum) (s : State) : Result := finish (s.setReg n (sext8 imm))

/-- `MOV.W @(disp,PC),Rn` (R106, R104). -/
def execMovWPcRel (disp : BitVec 8) (n : RegNum) (s : State) : Result := loadHalfTo n (s.eaPcWord disp) s

/-- `MOV.L @(disp,PC),Rn` (R107, R104). -/
def execMovLPcRel (disp : BitVec 8) (n : RegNum) (s : State) : Result := loadLongTo n (s.eaPcLong disp) s

/-! ### Register and register-indirect moves -/

/-- `MOV Rm,Rn` (R108). -/
def execMovReg (m n : RegNum) (s : State) : Result := finish (s.setReg n (s.reg m))

/-- `MOV.B Rm,@Rn` (R109). -/
def execMovBStore (m n : RegNum) (s : State) : Result := storeByteFrom (s.reg m) (s.reg n) s

/-- `MOV.W Rm,@Rn` (R110). -/
def execMovWStore (m n : RegNum) (s : State) : Result := storeHalfFrom (s.reg m) (s.reg n) s

/-- `MOV.L Rm,@Rn` (R111). -/
def execMovLStore (m n : RegNum) (s : State) : Result := storeLongFrom (s.reg m) (s.reg n) s

/-- `MOV.B @Rm,Rn` (R112). -/
def execMovBLoad (m n : RegNum) (s : State) : Result := loadByteTo n (s.reg m) s

/-- `MOV.W @Rm,Rn` (R113). -/
def execMovWLoad (m n : RegNum) (s : State) : Result := loadHalfTo n (s.reg m) s

/-- `MOV.L @Rm,Rn` (R114). -/
def execMovLLoad (m n : RegNum) (s : State) : Result := loadLongTo n (s.reg m) s

/-- `MOV.B Rm,@-Rn` (R115). -/
def execMovBStoreDec (m n : RegNum) (s : State) : Result := storeByteDec m n s

/-- `MOV.W Rm,@-Rn` (R116). -/
def execMovWStoreDec (m n : RegNum) (s : State) : Result := storeHalfDec m n s

/-- `MOV.L Rm,@-Rn` (R117). -/
def execMovLStoreDec (m n : RegNum) (s : State) : Result := storeLongDec (s.reg m) n s

/-- `MOV.B @Rm+,Rn` (R118). -/
def execMovBLoadInc (m n : RegNum) (s : State) : Result := loadByteInc m n s

/-- `MOV.W @Rm+,Rn` (R119). -/
def execMovWLoadInc (m n : RegNum) (s : State) : Result := loadHalfInc m n s

/-- `MOV.L @Rm+,Rn` (R120). -/
def execMovLLoadInc (m n : RegNum) (s : State) : Result := loadLongInc m n s

/-! ### Register indirect with displacement -/

/-- `MOV.B R0,@(disp,Rn)` (R121). -/
def execMovBStoreDisp (disp : BitVec 4) (n : RegNum) (s : State) : Result :=
  storeByteFrom (s.reg 0) (s.eaDisp n disp 1) s

/-- `MOV.W R0,@(disp,Rn)` (R122). -/
def execMovWStoreDisp (disp : BitVec 4) (n : RegNum) (s : State) : Result :=
  storeHalfFrom (s.reg 0) (s.eaDisp n disp 2) s

/-- `MOV.L Rm,@(disp,Rn)` (R123). -/
def execMovLStoreDisp (m : RegNum) (disp : BitVec 4) (n : RegNum) (s : State) : Result :=
  storeLongFrom (s.reg m) (s.eaDisp n disp 4) s

/-- `MOV.B @(disp,Rm),R0` (R124). -/
def execMovBLoadDisp (disp : BitVec 4) (m : RegNum) (s : State) : Result := loadByteTo 0 (s.eaDisp m disp 1) s

/-- `MOV.W @(disp,Rm),R0` (R125). -/
def execMovWLoadDisp (disp : BitVec 4) (m : RegNum) (s : State) : Result := loadHalfTo 0 (s.eaDisp m disp 2) s

/-- `MOV.L @(disp,Rm),Rn` (R126). -/
def execMovLLoadDisp (disp : BitVec 4) (m n : RegNum) (s : State) : Result := loadLongTo n (s.eaDisp m disp 4) s

/-! ### Indexed register indirect -/

/-- `MOV.B Rm,@(R0,Rn)` (R127). -/
def execMovBStoreIdx (m n : RegNum) (s : State) : Result := storeByteFrom (s.reg m) (s.eaIndexed n) s

/-- `MOV.W Rm,@(R0,Rn)` (R128). -/
def execMovWStoreIdx (m n : RegNum) (s : State) : Result := storeHalfFrom (s.reg m) (s.eaIndexed n) s

/-- `MOV.L Rm,@(R0,Rn)` (R129). -/
def execMovLStoreIdx (m n : RegNum) (s : State) : Result := storeLongFrom (s.reg m) (s.eaIndexed n) s

/-- `MOV.B @(R0,Rm),Rn` (R130). -/
def execMovBLoadIdx (m n : RegNum) (s : State) : Result := loadByteTo n (s.eaIndexed m) s

/-- `MOV.W @(R0,Rm),Rn` (R131). -/
def execMovWLoadIdx (m n : RegNum) (s : State) : Result := loadHalfTo n (s.eaIndexed m) s

/-- `MOV.L @(R0,Rm),Rn` (R132). -/
def execMovLLoadIdx (m n : RegNum) (s : State) : Result := loadLongTo n (s.eaIndexed m) s

/-! ### GBR indirect with displacement -/

/-- `MOV.B R0,@(disp,GBR)` (R133). -/
def execMovBStoreGbr (disp : BitVec 8) (s : State) : Result := storeByteFrom (s.reg 0) (s.eaGbr disp 1) s

/-- `MOV.W R0,@(disp,GBR)` (R134). -/
def execMovWStoreGbr (disp : BitVec 8) (s : State) : Result := storeHalfFrom (s.reg 0) (s.eaGbr disp 2) s

/-- `MOV.L R0,@(disp,GBR)` (R135). -/
def execMovLStoreGbr (disp : BitVec 8) (s : State) : Result := storeLongFrom (s.reg 0) (s.eaGbr disp 4) s

/-- `MOV.B @(disp,GBR),R0` (R136). -/
def execMovBLoadGbr (disp : BitVec 8) (s : State) : Result := loadByteTo 0 (s.eaGbr disp 1) s

/-- `MOV.W @(disp,GBR),R0` (R137). -/
def execMovWLoadGbr (disp : BitVec 8) (s : State) : Result := loadHalfTo 0 (s.eaGbr disp 2) s

/-- `MOV.L @(disp,GBR),R0` (R138). -/
def execMovLLoadGbr (disp : BitVec 8) (s : State) : Result := loadLongTo 0 (s.eaGbr disp 4) s

/-! ### MOVA, MOVT, SWAP, XTRCT -/

/-- `MOVA @(disp,PC),R0`: the effective address itself (R139, R104). -/
def execMova (disp : BitVec 8) (s : State) : Result := finish (s.setReg 0 (s.eaPcLong disp))

/-- `MOVT Rn`: T as 0 or 1 (R140). -/
def execMovt (n : RegNum) (s : State) : Result := finish (s.setReg n (bitWord s.t))

/-- A longword with its two low bytes exchanged (R141). -/
def swapBytes (w : Word) : Word := highHalf w ++ lowByte w ++ w.extractLsb' 8 8

/-- A longword with its halves exchanged (R142). -/
def swapHalves (w : Word) : Word := lowHalf w ++ highHalf w

/-- `SWAP.B Rm,Rn` (R141). -/
def execSwapB (m n : RegNum) (s : State) : Result := finish (s.setReg n (swapBytes (s.reg m)))

/-- `SWAP.W Rm,Rn` (R142). -/
def execSwapW (m n : RegNum) (s : State) : Result := finish (s.setReg n (swapHalves (s.reg m)))

/-- `XTRCT Rm,Rn`: bits 47-16 of Rm : Rn (R143). -/
def execXtrct (m n : RegNum) (s : State) : Result := finish (s.setReg n (lowHalf (s.reg m) ++ highHalf (s.reg n)))

end Sys2Proof.Machine
end

