-- ==== Sys2Proof/Machine/FloatArith.lean ====
section
/-! DEFINITION. Single-precision arithmetic as the spec defines it (46_floating_point section 1): operand classes, exact
values, truncation toward zero with denormals flushed (R318), and the outcome of each arithmetic instruction as a
function of the operand patterns.  An exact magnitude is a natural number of units of 2^-149, the smallest step of
the format. -/

namespace Sys2Proof.Machine

/-! ### Patterns and classes (R311, R312, R313) -/

/-- The sign of a pattern, bit 31. -/
def fpSign (v : Word) : Bool := v.msb

/-- The pattern without its sign. -/
def fpAbs (v : Word) : Word := v &&& 0x7FFFFFFF

/-- A zero or a denormalized number, which counts as zero (R311). -/
def fpIsZero (v : Word) : Bool := (fpAbs v).ult 0x00800000

/-- An infinity (R311). -/
def fpIsInf (v : Word) : Bool := fpAbs v == 0x7F800000

/-- A NaN of either kind. -/
def fpIsNan (v : Word) : Bool := BitVec.ult 0x7F800000 (fpAbs v)

/-- A signaling NaN: on this CPU, a NaN with bit 22 set (R312). -/
def fpIsSNan (v : Word) : Bool := fpIsNan v && v.getLsbD 22

/-- A quiet NaN: a NaN with bit 22 clear (R312). -/
def fpIsQNan (v : Word) : Bool := fpIsNan v && !v.getLsbD 22

/-- The quiet NaN every operation generates (R313). -/
def fpQNan : Word := 0x7FBFFFFF

/-- The zero of a sign (R313). -/
def fpZero (sign : Bool) : Word := if sign then 0x80000000 else 0x00000000

/-- The infinity of a sign (R313). -/
def fpInf (sign : Bool) : Word := if sign then 0xFF800000 else 0x7F800000

/-! ### Exact values -/

/-- The biased exponent, bits 30-23 (R311). -/
def fpExponent (v : Word) : Nat := (v.extractLsb' 23 8).toNat

/-- The fraction, bits 22-0 (R311). -/
def fpFraction (v : Word) : Nat := (v.extractLsb' 0 23).toNat

/-- The magnitude of a finite pattern in units of 2^-149; a zero or denormalized number contributes 0 (R318).  An
infinity reads as 2^128, above every finite magnitude, which is all a comparison needs (R332). -/
def fpMag (v : Word) : Nat :=
  if fpExponent v = 0 then 0 else (2 ^ 23 + fpFraction v) * 2 ^ (fpExponent v - 1)

/-- The signed exact value in units of 2^-149. -/
def fpVal (v : Word) : Int := if fpSign v then -(fpMag v : Int) else fpMag v

/-- The exact magnitude `num / den`, in units of 2^-149, truncated to the format (R318): below 2^-126 the zero of its
sign, above the range the largest finite number, else the 24 leading bits. -/
def fpRz (sign : Bool) (num den : Nat) : Word :=
  let units := num / den
  if units < 2 ^ 23 then fpZero sign
  else
    let top := Nat.log2 units
    if 276 < top then (if sign then 0xFF7FFFFF else 0x7F7FFFFF)
    else
      fpZero sign ||| BitVec.ofNat 32 (top - 22) <<< 23
        ||| BitVec.ofNat 32 (units / 2 ^ (top - 23) - 2 ^ 23)

/-- `arith` of an exact value that is a signed number of `1 / den` units; an exact zero gives +0 (R318, R319). -/
def fpRzInt (num : Int) (den : Nat) : Word := fpRz (decide (num < 0)) num.natAbs den

/-! ### Outcomes -/

/-- What a floating-point operation comes to. -/
inductive FpResult where
  /-- A value, with no cause bit. -/
  | value (v : Word)
  /-- An invalid operation (R315). -/
  | invalid
  /-- A division by zero whose disabled result is the infinity of the sign (R316). -/
  | divByZero (sign : Bool)
  deriving DecidableEq, Repr

/-- The NaN checks of the two-operand instructions, in their order (R317). -/
def fpNanCheck (a b : Word) (r : FpResult) : FpResult :=
  if fpIsSNan a || fpIsSNan b then .invalid
  else if fpIsQNan a || fpIsQNan b then .value fpQNan
  else r

/-- FADD of `a` = FRn and `b` = FRm after the NaN checks (R331). -/
def fpAddNumbers (a b : Word) : FpResult :=
  if fpIsInf a && fpIsInf b then (if fpSign a != fpSign b then .invalid else .value (fpInf (fpSign a)))
  else if fpIsInf a then .value (fpInf (fpSign a))
  else if fpIsInf b then .value (fpInf (fpSign b))
  else if fpIsZero a && fpIsZero b then .value (fpZero (fpSign a && fpSign b))
  else if fpIsZero a then .value b
  else if fpIsZero b then .value a
  else .value (fpRzInt (fpVal a + fpVal b) 1)

/-- FADD (R331). -/
def fpAdd (a b : Word) : FpResult := fpNanCheck a b (fpAddNumbers a b)

/-- FSUB: FADD with the sign of `b` turned, after the NaN checks (R350). -/
def fpSub (a b : Word) : FpResult := fpNanCheck a b (fpAddNumbers a (b ^^^ 0x80000000))

/-- FMUL of `a` = FRn and `b` = FRm (R347). -/
def fpMul (a b : Word) : FpResult :=
  let s := fpSign a ^^ fpSign b
  fpNanCheck a b <|
    if (fpIsInf a && fpIsZero b) || (fpIsZero a && fpIsInf b) then .invalid
    else if fpIsInf a || fpIsInf b then .value (fpInf s)
    else if fpIsZero a || fpIsZero b then .value (fpZero s)
    else .value (fpRz s (fpMag a * fpMag b) (2 ^ 149))

/-- FDIV of the dividend `a` = FRn by the divisor `b` = FRm (R334). -/
def fpDiv (a b : Word) : FpResult :=
  let s := fpSign a ^^ fpSign b
  fpNanCheck a b <|
    if fpIsZero b then
      (if fpIsZero a then .invalid else if fpIsInf a then .value (fpInf s) else .divByZero s)
    else if fpIsInf b then (if fpIsInf a then .invalid else .value (fpZero s))
    else if fpIsInf a then .value (fpInf s)
    else if fpIsZero a then .value (fpZero s)
    else .value (fpRz s (fpMag a * 2 ^ 149) (fpMag b))

/-- The finite, nonzero product of FMAC added to a finite `c` (R339): with `FMAC_FUSED` one truncation of the exact
sum, without it the product truncated by itself and then FADD.  DESIGN CHOICE (assumption 46): where the product
underflows to a zero and `c` is a zero or denormalized number, FADD's table gives the zero, so +0 for unlike signs,
and not the product's own sign. -/
def fpMacArith (fused : Bool) (a b c : Word) : FpResult :=
  if fused then .value (fpRzInt (fpVal a * fpVal b + fpVal c * 2 ^ 149) (2 ^ 149))
  else fpAddNumbers c (fpRz (fpSign a ^^ fpSign b) (fpMag a * fpMag b) (2 ^ 149))

/-- FMAC of `a` = FR0, `b` = FRm and `c` = FRn, the checks in the order of R339. -/
def fpMac (fused : Bool) (a b c : Word) : FpResult :=
  let s := fpSign a ^^ fpSign b
  if fpIsSNan a || fpIsSNan b || fpIsSNan c then .invalid
  else if (fpIsZero a && fpIsInf b) || (fpIsInf a && fpIsZero b) then .invalid
  else if fpIsQNan a || fpIsQNan b || fpIsQNan c then .value fpQNan
  else if fpIsInf a || fpIsInf b then
    (if fpIsInf c && fpSign c != s then .invalid else .value (fpInf s))
  else if fpIsInf c then .value (fpInf (fpSign c))
  else if fpIsZero a || fpIsZero b then
    .value (if fpIsZero c then fpZero (fpSign c && s) else c)
  else fpMacArith fused a b c

/-- FABS (R330). -/
def fpAbsolute (v : Word) : FpResult :=
  if fpIsSNan v then .invalid
  else if fpIsQNan v then .value fpQNan
  else if fpIsZero v then .value 0
  else .value (fpAbs v)

/-- FNEG: a denormalized number gives the zero of the other sign (R348, D20). -/
def fpNegate (v : Word) : FpResult :=
  if fpIsSNan v then .invalid
  else if fpIsQNan v then .value fpQNan
  else if fpIsZero v then .value (fpZero (!fpSign v))
  else .value (v ^^^ 0x80000000)

/-- FLOAT of the signed integer a longword holds (R338). -/
def fpOfInt (v : Word) : Word := fpRzInt (v.toInt * 2 ^ 149) 1

/-- The integer a finite pattern truncates to, in two's complement (R351). -/
def fpTruncate (v : Word) : Word :=
  BitVec.ofInt 32 (if fpSign v then -(fpMag v / 2 ^ 149 : Nat) else (fpMag v / 2 ^ 149 : Nat))

/-- What FTRC comes to. -/
inductive FtrcResult where
  /-- The integer. -/
  | value (v : Word)
  /-- An invalid operation, with the value FPUL takes where it is not enabled. -/
  | invalid (saturated : Word)
  deriving DecidableEq, Repr

/-- FTRC (R351): out of range above, below, and NaNs. -/
def fpToInt (v : Word) : FtrcResult :=
  if fpSign v then
    (if BitVec.ult 0xCF000000 v then .invalid 0x80000000 else .value (fpTruncate v))
  else if BitVec.ult 0x7F800000 (fpAbs v) then .invalid 0x80000000
  else if BitVec.ult 0x4EFFFFFF (fpAbs v) then .invalid 0x7FFFFFFF
  else .value (fpTruncate v)

/-- What a comparison comes to: `fcmp_chk` (R332). -/
inductive FcmpResult where
  | equal
  | greater
  | notGreater
  | unordered
  | invalid
  deriving DecidableEq, Repr

/-- `fcmp_chk` of `a` = FRn against `b` = FRm (R332). -/
def fpCompare (a b : Word) : FcmpResult :=
  if fpIsSNan a || fpIsSNan b then .invalid
  else if fpIsQNan a || fpIsQNan b then .unordered
  else if fpVal a = fpVal b then .equal
  else if fpVal b < fpVal a then .greater
  else .notGreater

end Sys2Proof.Machine
end

