-- ==== Sys2Proof/Machine/FloatingPoint.lean ====
section
/-! DEFINITION. The floating-point instructions (46_floating_point, R330 to R351): the outcome of `FloatArith.lean`
written into the state with its cause and flag bits, or the FPU exception.  Common behaviour: R310; illegal while
the FPU is stopped (R91, 30_encoding). -/

namespace Sys2Proof.Machine

/-! ### Shared shapes -/

/-- `invalid`: CV and FV are set; without EV the state goes on as `disabled` says, with EV the destination is
unchanged and the FPU exception is taken (R315). -/
def invalidOutcome (s : State) (disabled : State → State) : Result :=
  let s1 := s.setInvalid
  if s1.ev then raiseFpu s1 else finish (disabled s1)

/-- `dz`: CZ and FZ are set; without EZ the state goes on as `disabled` says, with EZ the FPU exception is taken
(R316). -/
def divZeroOutcome (s : State) (disabled : State → State) : Result :=
  let s1 := s.setDivZero
  if s1.ez then raiseFpu s1 else finish (disabled s1)

/-- Write the outcome of an arithmetic instruction to FRn, the cause bits cleared first (R314 to R316). -/
def arithOutcome (n : FRegNum) (r : FpResult) (s : State) : Result :=
  let s1 := s.clearCause
  match r with
  | .value v => finish (s1.setFreg n v)
  | .invalid => invalidOutcome s1 fun s2 => s2.setFreg n fpQNan
  | .divByZero sign => divZeroOutcome s1 fun s2 => s2.setFreg n (fpInf sign)

/-- Write the outcome of a comparison to T; an invalid one clears T where it is not enabled (R332, R333). -/
def compareOutcome (result : Option Bool) (s : State) : Result :=
  let s1 := s.clearCause
  match result with
  | some b => finish (s1.setT b)
  | none => invalidOutcome s1 fun s2 => s2.setT false

/-- Load a longword into FRn, raw (R340, R341). -/
def loadFregTo (n : FRegNum) (a : Word) (s : State) : Result :=
  withLoad (s.loadLong 1 a) s fun w => finish (s.setFreg n w)

/-! ### Arithmetic -/

/-- `FABS FRn` (R330). -/
def execFabs (n : FRegNum) (s : State) : Result := guardFpu s (arithOutcome n (fpAbsolute (s.freg n)) s)

/-- `FADD FRm,FRn` (R331). -/
def execFadd (m n : FRegNum) (s : State) : Result := guardFpu s (arithOutcome n (fpAdd (s.freg n) (s.freg m)) s)

/-- `FDIV FRm,FRn` (R334). -/
def execFdiv (m n : FRegNum) (s : State) : Result := guardFpu s (arithOutcome n (fpDiv (s.freg n) (s.freg m)) s)

/-- `FMAC FR0,FRm,FRn` (R339). -/
def execFmac (m n : FRegNum) (s : State) : Result :=
  guardFpu s (arithOutcome n (fpMac s.params.fmacFused (s.freg 0) (s.freg m) (s.freg n)) s)

/-- `FMUL FRm,FRn` (R347). -/
def execFmul (m n : FRegNum) (s : State) : Result := guardFpu s (arithOutcome n (fpMul (s.freg n) (s.freg m)) s)

/-- `FNEG FRn` (R348). -/
def execFneg (n : FRegNum) (s : State) : Result := guardFpu s (arithOutcome n (fpNegate (s.freg n)) s)

/-- `FSUB FRm,FRn` (R350). -/
def execFsub (m n : FRegNum) (s : State) : Result := guardFpu s (arithOutcome n (fpSub (s.freg n) (s.freg m)) s)

/-! ### Compare -/

/-- `FCMP/EQ FRm,FRn`: a quiet NaN makes it false (R332). -/
def execFcmpEq (m n : FRegNum) (s : State) : Result :=
  guardFpu s (compareOutcome
    (match fpCompare (s.freg n) (s.freg m) with
      | .invalid => none
      | r => some (r == .equal)) s)

/-- `FCMP/GT FRm,FRn`: any NaN makes it invalid (R333). -/
def execFcmpGt (m n : FRegNum) (s : State) : Result :=
  guardFpu s (compareOutcome
    (match fpCompare (s.freg n) (s.freg m) with
      | .invalid | .unordered => none
      | r => some (r == .greater)) s)

/-! ### Constants, copies and conversions -/

/-- `FLDI0 FRn` (R335). -/
def execFldi0 (n : FRegNum) (s : State) : Result := guardFpu s (finish (s.setFreg n 0x00000000))

/-- `FLDI1 FRn` (R336). -/
def execFldi1 (n : FRegNum) (s : State) : Result := guardFpu s (finish (s.setFreg n 0x3F800000))

/-- `FLDS FRm,FPUL`: a raw copy (R337). -/
def execFlds (m : FRegNum) (s : State) : Result := guardFpu s (finish { s with fpul := s.freg m })

/-- `FLOAT FPUL,FRn` (R338); whether it clears CV and CZ is the parameter `FLOAT_CLEARS_CAUSE` (R314, D21). -/
def execFloat (n : FRegNum) (s : State) : Result :=
  guardFpu s (finish ((if s.params.floatClearsCause then s.clearCause else s).setFreg n (fpOfInt s.fpul)))

/-- `FSTS FPUL,FRn`: a raw copy (R349). -/
def execFsts (n : FRegNum) (s : State) : Result := guardFpu s (finish (s.setFreg n s.fpul))

/-- `FTRC FRm,FPUL` (R351). -/
def execFtrc (m : FRegNum) (s : State) : Result :=
  guardFpu s
    (match fpToInt (s.freg m) with
      | .value v => finish { s.clearCause with fpul := v }
      | .invalid saturated => invalidOutcome s.clearCause fun s1 => { s1 with fpul := saturated })

/-! ### Moves: raw copies, FPSCR unchanged (R340) -/

/-- `FMOV FRm,FRn` (R340). -/
def execFmov (m n : FRegNum) (s : State) : Result := guardFpu s (finish (s.setFreg n (s.freg m)))

/-- `FMOV.S @(R0,Rm),FRn` (R341). -/
def execFmovLoadIdx (m : RegNum) (n : FRegNum) (s : State) : Result := guardFpu s (loadFregTo n (s.eaIndexed m) s)

/-- `FMOV.S @Rm+,FRn` (R342). -/
def execFmovLoadInc (m : RegNum) (n : FRegNum) (s : State) : Result :=
  guardFpu s (withLoad (s.loadLong 1 (s.reg m)) s fun w => finish ((s.setFreg n w).setReg m (s.reg m + 4)))

/-- `FMOV.S @Rm,FRn` (R343). -/
def execFmovLoad (m : RegNum) (n : FRegNum) (s : State) : Result := guardFpu s (loadFregTo n (s.reg m) s)

/-- `FMOV.S FRm,@(R0,Rn)` (R344). -/
def execFmovStoreIdx (m : FRegNum) (n : RegNum) (s : State) : Result :=
  guardFpu s (storeLongFrom (s.freg m) (s.eaIndexed n) s)

/-- `FMOV.S FRm,@-Rn` (R345). -/
def execFmovStoreDec (m : FRegNum) (n : RegNum) (s : State) : Result := guardFpu s (storeLongDec (s.freg m) n s)

/-- `FMOV.S FRm,@Rn` (R346). -/
def execFmovStore (m : FRegNum) (n : RegNum) (s : State) : Result :=
  guardFpu s (storeLongFrom (s.freg m) (s.reg n) s)

end Sys2Proof.Machine
end

