-- ==== Sys2Proof/Machine/FpuCpu.lean ====
section
/-! DEFINITION. The FPU-related CPU instructions (47_fpu_cpu, R361 to R368).  Common behaviour: R360; illegal while the
FPU is stopped (R91, 30_encoding); not interrupt-disabled (D22). -/

namespace Sys2Proof.Machine

/-- Write FPUL (R28, 10_state). -/
def State.writeFpul (s : State) (v : Word) : State := { s with fpul := v }

/-- `LDS Rm,FPSCR` (R361). -/
def execLdsFpscr (m : RegNum) (s : State) : Result := guardFpu s (finish (s.writeFpscr (s.reg m)))

/-- `LDS Rm,FPUL` (R362). -/
def execLdsFpul (m : RegNum) (s : State) : Result := guardFpu s (finish (s.writeFpul (s.reg m)))

/-- `LDS.L @Rm+,FPSCR` (R363). -/
def execLdsLFpscr (m : RegNum) (s : State) : Result :=
  guardFpu s (withLoad (s.loadLong 1 (s.reg m)) s fun v => finish ((s.writeFpscr v).setReg m (s.reg m + 4)))

/-- `LDS.L @Rm+,FPUL` (R364). -/
def execLdsLFpul (m : RegNum) (s : State) : Result :=
  guardFpu s (withLoad (s.loadLong 1 (s.reg m)) s fun v => finish ((s.writeFpul v).setReg m (s.reg m + 4)))

/-- `STS FPSCR,Rn` (R365). -/
def execStsFpscr (n : RegNum) (s : State) : Result := guardFpu s (finish (s.setReg n s.fpscr))

/-- `STS FPUL,Rn` (R366). -/
def execStsFpul (n : RegNum) (s : State) : Result := guardFpu s (finish (s.setReg n s.fpul))

/-- `STS.L FPSCR,@-Rn` (R367). -/
def execStsLFpscr (n : RegNum) (s : State) : Result := guardFpu s (storeLongDec s.fpscr n s)

/-- `STS.L FPUL,@-Rn` (R368). -/
def execStsLFpul (n : RegNum) (s : State) : Result := guardFpu s (storeLongDec s.fpul n s)

end Sys2Proof.Machine
end

