-- ==== Sys2Proof/Machine/Logic.lean ====
section
/-! DEFINITION. The logic instructions (42_logic, R202 to R215).  Common behaviour: R200, R201. -/

namespace Sys2Proof.Machine

/-- Read the byte at an address, combine it, and write it back (R201). -/
def modifyByte (a : Word) (f : Byte → Byte) (s : State) : Result :=
  withLoad (s.loadByte 1 a) s fun b => withStore (s.storeByte a (f b)) s finish

/-- `AND Rm,Rn` (R202). -/
def execAndReg (m n : RegNum) (s : State) : Result := finish (s.setReg n (s.reg n &&& s.reg m))

/-- `AND #imm,R0` (R203). -/
def execAndImm (imm : BitVec 8) (s : State) : Result := finish (s.setReg 0 (s.reg 0 &&& zext8 imm))

/-- `AND.B #imm,@(R0,GBR)` (R204). -/
def execAndB (imm : BitVec 8) (s : State) : Result := modifyByte s.eaGbrIndexed (· &&& imm) s

/-- `NOT Rm,Rn` (R205). -/
def execNot (m n : RegNum) (s : State) : Result := finish (s.setReg n (~~~(s.reg m)))

/-- `OR Rm,Rn` (R206). -/
def execOrReg (m n : RegNum) (s : State) : Result := finish (s.setReg n (s.reg n ||| s.reg m))

/-- `OR #imm,R0` (R207). -/
def execOrImm (imm : BitVec 8) (s : State) : Result := finish (s.setReg 0 (s.reg 0 ||| zext8 imm))

/-- `OR.B #imm,@(R0,GBR)` (R208). -/
def execOrB (imm : BitVec 8) (s : State) : Result := modifyByte s.eaGbrIndexed (· ||| imm) s

/-- `TAS.B @Rn`: T is whether the byte was 0, and its bit 7 is set (R209).  The bus lock of the pair is out of the
model's sight (assumption 35). -/
def execTasB (n : RegNum) (s : State) : Result :=
  withLoad (s.loadByte 1 (s.reg n)) s fun b =>
    withStore (s.storeByte (s.reg n) (b ||| 0x80)) s fun s' => finish (s'.setT (b == 0))

/-- `TST Rm,Rn` (R210). -/
def execTstReg (m n : RegNum) (s : State) : Result := finish (s.setT (s.reg n &&& s.reg m == 0))

/-- `TST #imm,R0` (R211). -/
def execTstImm (imm : BitVec 8) (s : State) : Result := finish (s.setT (s.reg 0 &&& zext8 imm == 0))

/-- `TST.B #imm,@(R0,GBR)`: one read, no write (R212). -/
def execTstB (imm : BitVec 8) (s : State) : Result :=
  withLoad (s.loadByte 1 s.eaGbrIndexed) s fun b => finish (s.setT (b &&& imm == 0))

/-- `XOR Rm,Rn` (R213). -/
def execXorReg (m n : RegNum) (s : State) : Result := finish (s.setReg n (s.reg n ^^^ s.reg m))

/-- `XOR #imm,R0` (R214). -/
def execXorImm (imm : BitVec 8) (s : State) : Result := finish (s.setReg 0 (s.reg 0 ^^^ zext8 imm))

/-- `XOR.B #imm,@(R0,GBR)` (R215). -/
def execXorB (imm : BitVec 8) (s : State) : Result := modifyByte s.eaGbrIndexed (· ^^^ imm) s

end Sys2Proof.Machine
end

