-- ==== Sys2Proof/Machine/Shift.lean ====
section
/-! DEFINITION. The shift instructions (43_shift, R221 to R234).  Common behaviour: R220. -/

namespace Sys2Proof.Machine

/-- Shift left by one, `low` entering at bit 0 (R221, R223, R225). -/
def shiftLeft1 (w : Word) (low : Bool) : Word := w <<< 1 ||| bitWord low

/-- Shift right by one, `high` entering at bit 31 (R222, R224, R226, R228). -/
def shiftRight1 (w : Word) (high : Bool) : Word := w >>> 1 ||| bitWord high <<< 31

/-- `ROTL Rn` (R221). -/
def execRotl (n : RegNum) (s : State) : Result :=
  finish ((s.setReg n (shiftLeft1 (s.reg n) (s.reg n).msb)).setT (s.reg n).msb)

/-- `ROTR Rn` (R222). -/
def execRotr (n : RegNum) (s : State) : Result :=
  finish ((s.setReg n (shiftRight1 (s.reg n) ((s.reg n).getLsbD 0))).setT ((s.reg n).getLsbD 0))

/-- `ROTCL Rn`: through T (R223). -/
def execRotcl (n : RegNum) (s : State) : Result :=
  finish ((s.setReg n (shiftLeft1 (s.reg n) s.t)).setT (s.reg n).msb)

/-- `ROTCR Rn`: through T (R224). -/
def execRotcr (n : RegNum) (s : State) : Result :=
  finish ((s.setReg n (shiftRight1 (s.reg n) s.t)).setT ((s.reg n).getLsbD 0))

/-- `SHAL Rn` (R225). -/
def execShal (n : RegNum) (s : State) : Result :=
  finish ((s.setReg n (shiftLeft1 (s.reg n) false)).setT (s.reg n).msb)

/-- `SHAR Rn`: bit 31 is kept (R226). -/
def execShar (n : RegNum) (s : State) : Result :=
  finish ((s.setReg n (shiftRight1 (s.reg n) (s.reg n).msb)).setT ((s.reg n).getLsbD 0))

/-- `SHLL Rn` (R227). -/
def execShll (n : RegNum) (s : State) : Result :=
  finish ((s.setReg n (shiftLeft1 (s.reg n) false)).setT (s.reg n).msb)

/-- `SHLR Rn` (R228). -/
def execShlr (n : RegNum) (s : State) : Result :=
  finish ((s.setReg n (shiftRight1 (s.reg n) false)).setT ((s.reg n).getLsbD 0))

/-- `SHLL2 Rn` (R229). -/
def execShll2 (n : RegNum) (s : State) : Result := finish (s.setReg n (s.reg n <<< 2))

/-- `SHLR2 Rn` (R230). -/
def execShlr2 (n : RegNum) (s : State) : Result := finish (s.setReg n (s.reg n >>> 2))

/-- `SHLL8 Rn` (R231). -/
def execShll8 (n : RegNum) (s : State) : Result := finish (s.setReg n (s.reg n <<< 8))

/-- `SHLR8 Rn` (R232). -/
def execShlr8 (n : RegNum) (s : State) : Result := finish (s.setReg n (s.reg n >>> 8))

/-- `SHLL16 Rn` (R233). -/
def execShll16 (n : RegNum) (s : State) : Result := finish (s.setReg n (s.reg n <<< 16))

/-- `SHLR16 Rn` (R234). -/
def execShlr16 (n : RegNum) (s : State) : Result := finish (s.setReg n (s.reg n >>> 16))

end Sys2Proof.Machine
end

