-- ==== Sys2Proof/Machine/SystemControl.lean ====
section
/-! DEFINITION. The system control instructions (45_system_control, R273 to R303).  Common behaviour: R270; the LDC,
LDS, STC and STS forms are interrupt-disabled (R271).  There is no privilege check (R420, 60_exceptions). -/

namespace Sys2Proof.Machine

/-! ### Shared shapes of the interrupt-disabled forms -/

/-- `LDC.L` and `LDS.L` from `@Rm+`: the longword goes where `write` puts it, then Rm advances by 4 (R278, R284). -/
def loadSystemInc (m : RegNum) (write : State → Word → State) (s : State) : Result :=
  withLoad (s.loadLong 1 (s.reg m)) s fun v => finishInhibit ((write s v).setReg m (s.reg m + 4))

/-- `STC.L` and `STS.L` to `@-Rn`: the value is stored, then Rn takes the address (R294, R300). -/
def storeSystemDec (v : Word) (n : RegNum) (s : State) : Result :=
  withStore (s.storeLong (s.eaPreDec n 4) v) s fun s' => finishInhibit (s'.setReg n (s.eaPreDec n 4))

/-- Write GBR (R14, 10_state). -/
def State.writeGbr (s : State) (v : Word) : State := { s with gbr := v }

/-- Write VBR (R15). -/
def State.writeVbr (s : State) (v : Word) : State := { s with vbr := v }

/-- Write MACH (R22). -/
def State.writeMach (s : State) (v : Word) : State := { s with mach := v }

/-- Write MACL (R22). -/
def State.writeMacl (s : State) (v : Word) : State := { s with macl := v }

/-- Write PR (R23). -/
def State.writePr (s : State) (v : Word) : State := { s with pr := v }

/-! ### Flag and MAC clearing -/

/-- `CLRT` (R273). -/
def execClrt (s : State) : Result := finish (s.setT false)

/-- `CLRMAC` (R274). -/
def execClrmac (s : State) : Result := finish ((s.writeMach 0).writeMacl 0)

/-! ### LDC -/

/-- `LDC Rm,SR` (R275, R272). -/
def execLdcSr (m : RegNum) (s : State) : Result := finishInhibit (s.writeSr (s.reg m))

/-- `LDC Rm,GBR` (R276). -/
def execLdcGbr (m : RegNum) (s : State) : Result := finishInhibit (s.writeGbr (s.reg m))

/-- `LDC Rm,VBR` (R277). -/
def execLdcVbr (m : RegNum) (s : State) : Result := finishInhibit (s.writeVbr (s.reg m))

/-- `LDC.L @Rm+,SR` (R278, R272). -/
def execLdcLSr (m : RegNum) (s : State) : Result := loadSystemInc m State.writeSr s

/-- `LDC.L @Rm+,GBR` (R279). -/
def execLdcLGbr (m : RegNum) (s : State) : Result := loadSystemInc m State.writeGbr s

/-- `LDC.L @Rm+,VBR` (R280). -/
def execLdcLVbr (m : RegNum) (s : State) : Result := loadSystemInc m State.writeVbr s

/-! ### LDS -/

/-- `LDS Rm,MACH` (R281). -/
def execLdsMach (m : RegNum) (s : State) : Result := finishInhibit (s.writeMach (s.reg m))

/-- `LDS Rm,MACL` (R282). -/
def execLdsMacl (m : RegNum) (s : State) : Result := finishInhibit (s.writeMacl (s.reg m))

/-- `LDS Rm,PR` (R283). -/
def execLdsPr (m : RegNum) (s : State) : Result := finishInhibit (s.writePr (s.reg m))

/-- `LDS.L @Rm+,MACH` (R284). -/
def execLdsLMach (m : RegNum) (s : State) : Result := loadSystemInc m State.writeMach s

/-- `LDS.L @Rm+,MACL` (R285). -/
def execLdsLMacl (m : RegNum) (s : State) : Result := loadSystemInc m State.writeMacl s

/-- `LDS.L @Rm+,PR` (R286). -/
def execLdsLPr (m : RegNum) (s : State) : Result := loadSystemInc m State.writePr s

/-! ### NOP, RTE, SETT, SLEEP -/

/-- `NOP` (R287). -/
def execNop (s : State) : Result := finish s

/-- `RTE` (R288): the shared return from an exception; illegal in a delay slot (R243). -/
def execRte (s : State) : Result := guardSlot s (returnFromException s)

/-- `SETT` (R289). -/
def execSett (s : State) : Result := finish (s.setT true)

/-- `SLEEP` (R290): the processing state becomes sleep; the address an interrupt returns to is the one after it, or
the branch target in a delay slot (D11).  Standby mode is out of the model (assumption 36). -/
def execSleep (s : State) : Result := finish { s with proc := .sleep }

/-! ### STC -/

/-- `STC SR,Rn` (R291). -/
def execStcSr (n : RegNum) (s : State) : Result := finishInhibit (s.setReg n s.sr)

/-- `STC GBR,Rn` (R292). -/
def execStcGbr (n : RegNum) (s : State) : Result := finishInhibit (s.setReg n s.gbr)

/-- `STC VBR,Rn` (R293). -/
def execStcVbr (n : RegNum) (s : State) : Result := finishInhibit (s.setReg n s.vbr)

/-- `STC.L SR,@-Rn` (R294). -/
def execStcLSr (n : RegNum) (s : State) : Result := storeSystemDec s.sr n s

/-- `STC.L GBR,@-Rn` (R295). -/
def execStcLGbr (n : RegNum) (s : State) : Result := storeSystemDec s.gbr n s

/-- `STC.L VBR,@-Rn` (R296). -/
def execStcLVbr (n : RegNum) (s : State) : Result := storeSystemDec s.vbr n s

/-! ### STS -/

/-- `STS MACH,Rn` (R297). -/
def execStsMach (n : RegNum) (s : State) : Result := finishInhibit (s.setReg n s.mach)

/-- `STS MACL,Rn` (R298). -/
def execStsMacl (n : RegNum) (s : State) : Result := finishInhibit (s.setReg n s.macl)

/-- `STS PR,Rn` (R299). -/
def execStsPr (n : RegNum) (s : State) : Result := finishInhibit (s.setReg n s.pr)

/-- `STS.L MACH,@-Rn` (R300). -/
def execStsLMach (n : RegNum) (s : State) : Result := storeSystemDec s.mach n s

/-- `STS.L MACL,@-Rn` (R301). -/
def execStsLMacl (n : RegNum) (s : State) : Result := storeSystemDec s.macl n s

/-- `STS.L PR,@-Rn` (R302). -/
def execStsLPr (n : RegNum) (s : State) : Result := storeSystemDec s.pr n s

/-! ### TRAPA -/

/-- `TRAPA #imm` (R303, R407): the exception entry with vector `imm` and the address of the next instruction; SR is
not changed; illegal in a delay slot (R243). -/
def execTrapa (imm : BitVec 8) (s : State) : Result := guardSlot s (enterException imm (s.pc + 2) none s)

end Sys2Proof.Machine
end

