-- ==== Sys2Proof/Machine/Step.lean ====
section
/-! DEFINITION. The step of the machine: one instruction boundary with the dispatch of `exec` (R403), and the placing
of one instruction where the next step fetches it. -/

namespace Sys2Proof.Machine

/-- One step of the machine (R403, 60_exceptions). -/
def step (s : State) : Host.Outcome State Fault Refusal := stepWith exec s

/-- The state with the instruction whose code is the low `nbits` bits of `w` placed from outside the machine at `pc`,
where the next step fetches it (assumption 33). -/
def State.withFetchWord (s : State) (nbits w : Nat) : State := placeCode s (BitVec.ofNat 16 (w % 2 ^ nbits))

end Sys2Proof.Machine
end

