-- ==== Sys2Proof/WellFormed.lean ====
section
/-! DEFINITION. Checks that turn written numbers into operand fields (R81, R82, R87, R95, 30_encoding), and the
check on what may stand in a delay slot (R92, 30_encoding; R243, 44_branch).  `Instr` holds fields of the encoded
width, so an instruction whose operands passed these checks has a code; each check refuses what has none, by
name. -/

namespace Sys2Proof

/-- Why a written operand has no encoding. -/
inductive OperandError where
  /-- A register number above 15 (R82). -/
  | noSuchRegister (number : Nat)
  /-- An immediate outside its 8-bit field (R87). -/
  | immediateRange (value : Int)
  /-- A byte offset that is not a multiple of the operand size (R95). -/
  | unscaledDisplacement (offset : Int)
  /-- A scaled displacement outside its field (R87). -/
  | displacementRange (offset : Int)
  deriving DecidableEq, Repr

/-- A register operand: R0 to R15, or FR0 to FR15 (R82). -/
def checkRegister (number : Nat) : Except OperandError RegNum :=
  if number < 16 then .ok (BitVec.ofNat 4 number) else .error (.noSuchRegister number)

/-- A sign-extended 8-bit immediate: MOV, ADD, CMP/EQ (R87).  DESIGN CHOICE (assumption 48): a written number is the
signed value, -128 to 127; the field's bits, which the source also writes (`MOV #H'80,R1` in R105, `ADD #H'FE,R3` in
R156), are refused from 128 to 255.  The check only reads written operands, and every field still has its code. -/
def checkSignedImm (value : Int) : Except OperandError (BitVec 8) :=
  if -128 ≤ value ∧ value ≤ 127 then .ok (BitVec.ofInt 8 value) else .error (.immediateRange value)

/-- A zero-extended 8-bit immediate: the logic forms and TRAPA (R87). -/
def checkUnsignedImm (value : Nat) : Except OperandError (BitVec 8) :=
  if value < 256 then .ok (BitVec.ofNat 8 value) else .error (.immediateRange value)

/-- A byte offset scaled by the operand size into an unsigned field of `bits` bits: the `@(disp,Rn)`,
`@(disp,GBR)` and `@(disp,PC)` forms (R85, R87). -/
def checkScaledDisp (bits size offset : Nat) : Except OperandError (BitVec bits) :=
  if offset % size ≠ 0 then .error (.unscaledDisplacement offset)
  else if offset / size < 2 ^ bits then .ok (BitVec.ofNat bits (offset / size))
  else .error (.displacementRange offset)

/-- A branch offset from PC, halved into a signed field of `bits` bits: BF, BT, BF/S, BT/S with 8 bits, BRA and
BSR with 12 (R85, R242). -/
def checkBranchDisp (bits : Nat) (offset : Int) : Except OperandError (BitVec bits) :=
  if offset % 2 ≠ 0 then .error (.unscaledDisplacement offset)
  else if -(2 ^ (bits - 1)) ≤ offset / 2 ∧ offset / 2 < 2 ^ (bits - 1) then .ok (BitVec.ofInt bits (offset / 2))
  else .error (.displacementRange offset)

/-- The 13 instructions that rewrite the program counter and so are illegal in a delay slot (R92, R243). -/
def Instr.rewritesPc (i : Instr) : Bool :=
  match i with
  | .bf _ | .bfS _ | .bt _ | .btS _ | .bra _ | .bsr _ | .braf _ | .bsrf _ | .jmp _ | .jsr _ | .rts | .rte
  | .trapa _ => true
  | _ => false

/-- The instructions that need the FPU: the 22 floating-point instructions and the 8 FPU-related CPU
instructions (R91, 30_encoding). -/
def Instr.usesFpu (i : Instr) : Bool :=
  match i with
  | .fabs _ | .fadd _ _ | .fcmpEq _ _ | .fcmpGt _ _ | .fdiv _ _ | .fldi0 _ | .fldi1 _ | .flds _ | .float _
  | .fmac _ _ | .fmov _ _ | .fmovLoadIdx _ _ | .fmovLoadInc _ _ | .fmovLoad _ _ | .fmovStoreIdx _ _
  | .fmovStoreDec _ _ | .fmovStore _ _ | .fmul _ _ | .fneg _ | .fsts _ | .fsub _ _ | .ftrc _
  | .ldsFpscr _ | .ldsFpul _ | .ldsLFpscr _ | .ldsLFpul _ | .stsFpscr _ | .stsFpul _ | .stsLFpscr _
  | .stsLFpul _ => true
  | _ => false

/-- The 24 instructions of the class "Interrupt disabled instruction" (R271, 45_system_control; R456,
70_reset_and_hazards). -/
def Instr.inhibitsInterrupts (i : Instr) : Bool :=
  match i with
  | .ldcSr _ | .ldcGbr _ | .ldcVbr _ | .ldcLSr _ | .ldcLGbr _ | .ldcLVbr _ | .ldsMach _ | .ldsMacl _ | .ldsPr _
  | .ldsLMach _ | .ldsLMacl _ | .ldsLPr _ | .stcSr _ | .stcGbr _ | .stcVbr _ | .stcLSr _ | .stcLGbr _
  | .stcLVbr _ | .stsMach _ | .stsMacl _ | .stsPr _ | .stsLMach _ | .stsLMacl _ | .stsLPr _ => true
  | _ => false

/-- Whether a program may place the instruction in a delay slot (R92): the check a program writer makes; the
machine itself takes the slot illegal instruction exception (R405). -/
def checkSlot (i : Instr) : Bool :=
  !i.rewritesPc

end Sys2Proof
end

