-- ==== Sys2Proof/Safety.lean ====
section
/-! DEFINITION. What the statements speak of: the invariant that every step keeps, the special registers by name, and
the frame of an instruction (what it leaves unchanged). -/

namespace Sys2Proof.Machine

/-! ### The invariant -/

/-- Bits of SR that hold no value read 0 (R21, 10_state; R291, 45_system_control): 31-28, 15-12, and those outside
`SR_MASK`. -/
def State.srLegal (s : State) : Prop := s.sr &&& ~~~(srWriteMask s.params) = 0

/-- FPSCR reads with DN = 1, RM = 01 and every other unwritable bit 0 (R30). -/
def State.fpscrLegal (s : State) : Prop := s.fpscr &&& ~~~(0x00018C60 : Word) = 0x00040001

/-- What every step keeps: memory in its canonical form; the stuck bits of SR and FPSCR; a CPU asleep has no pending
branch and no interrupt inhibit; the slot of a not-taken branch only under its parameter; the addresses stored to
rising, and none while `FETCH_COHERENT` holds. -/
structure State.Inv (s : State) : Prop where
  memory : s.mem.wf = true
  sr : s.srLegal
  fpscr : s.fpscrLegal
  sleeping : s.proc = .sleep → s.slot = .none ∧ s.inhibit = false
  untaken : s.slot = .untaken → s.params.untakenSlotIsSlot = true
  storedRising : s.stored.Pairwise (· < ·)
  storedNone : s.params.fetchCoherent = true → s.stored = []

/-! ### Special registers -/

/-- The registers that are neither general nor floating-point registers, nor PC or SR (10_state section 1). -/
inductive Special where
  | gbr | vbr | mach | macl | pr | fpul | fpscr
  deriving DecidableEq, Repr

/-- The content of a special register. -/
def State.special (s : State) (r : Special) : Word :=
  match r with
  | .gbr => s.gbr
  | .vbr => s.vbr
  | .mach => s.mach
  | .macl => s.macl
  | .pr => s.pr
  | .fpul => s.fpul
  | .fpscr => s.fpscr

/-! ### Frames -/

/-- What an instruction leaves unchanged between `s` and `t`: every general register but `regs`, every
floating-point register but `fregs`, every special register but `specials`, every bit of SR outside `srBits`, the
FPU module stop, the parameters, the inputs to come and the boundary counter.  PC, the pending branch, the interrupt
inhibit, the processing state and memory are spoken of apart. -/
structure Frame (regs : List RegNum) (fregs : List FRegNum) (specials : List Special) (srBits : Word)
    (s t : State) : Prop where
  regs : ∀ r, r ∉ regs → t.reg r = s.reg r
  fregs : ∀ r, r ∉ fregs → t.freg r = s.freg r
  specials : ∀ r, r ∉ specials → t.special r = s.special r
  sr : t.sr &&& ~~~srBits = s.sr &&& ~~~srBits
  fpuStopped : t.fpuStopped = s.fpuStopped
  params : t.params = s.params
  inputs : t.inputs = s.inputs
  tick : t.tick = s.tick

/-- Every byte of memory reads as before, through the machine's own read of a byte, and no address counts anew as
stored to. -/
def MemKept (s t : State) : Prop := (∀ k a, t.byteAt k a = s.byteAt k a) ∧ t.stored = s.stored

/-- Every byte of memory outside the `width` bytes from `a` reads as before. -/
def MemKeptOutside (a : Word) (width : Nat) (s t : State) : Prop :=
  ∀ k b, (∀ i, i < width → b ≠ a + BitVec.ofNat 32 i) → t.byteAt k b = s.byteAt k b

/-- The instruction completed as one that is no branch: the next instruction is the pending target or the one at
`pc + 2`, no branch is pending, and the interrupt inhibit is as given (R240, R241, 44_branch; R456,
70_reset_and_hazards). -/
def Completed (inhibit : Bool) (s t : State) : Prop :=
  t.pc = s.nextPc ∧ t.slot = .none ∧ t.inhibit = inhibit ∧ t.proc = s.proc

/-- The bits of SR that hold T, Q and M (R16). -/
def srT : Word := 0x00000001

/-- T, Q and M together (R168 to R170, 41_arithmetic). -/
def srTQM : Word := 0x00000301

/-- The address is aligned for an access of `width` bytes and no byte of it is absent: a read completes (R54; D8). -/
def State.Readable (s : State) (width : Nat) (a : Word) : Prop :=
  a.toNat % width = 0 ∧ ∀ i, i < width → s.kindAt (a + BitVec.ofNat 32 i) ≠ .absent

/-- A read completes and no byte lies in ROM that faults writes: a write completes (R54; D8). -/
def State.Writable (s : State) (width : Nat) (a : Word) : Prop :=
  s.Readable width a ∧ ∀ i, i < width → s.kindAt (a + BitVec.ofNat 32 i) ≠ .romFault

/-- Every one of `width` bytes from `a` lies in RAM, so that it keeps what is written (D8). -/
def State.InRam (s : State) (width : Nat) (a : Word) : Prop :=
  ∀ i, i < width → s.kindAt (a + BitVec.ofNat 32 i) = .ram

/-- The instruction wrote `v` to Rn, and nothing else but PC. -/
structure WroteReg (n : RegNum) (v : Word) (s t : State) : Prop where
  result : t.reg n = v
  frame : Frame [n] [] [] 0 s t
  memory : MemKept s t
  done : Completed false s t

/-- The instruction wrote `v` to Rn and `b` to T, and nothing else but PC. -/
structure WroteRegT (n : RegNum) (v : Word) (b : Bool) (s t : State) : Prop where
  result : t.reg n = v
  flag : t.t = b
  frame : Frame [n] [] [] srT s t
  memory : MemKept s t
  done : Completed false s t

/-- The instruction wrote `b` to T, and nothing else but PC. -/
structure WroteT (b : Bool) (s t : State) : Prop where
  flag : t.t = b
  frame : Frame [] [] [] srT s t
  memory : MemKept s t
  done : Completed false s t

/-- The instruction wrote `v` to FRn, and nothing else but PC. -/
structure WroteFreg (n : FRegNum) (v : Word) (s t : State) : Prop where
  result : t.freg n = v
  frame : Frame [] [n] [] 0 s t
  memory : MemKept s t
  done : Completed false s t

/-- The instruction stored the `width` bytes from `a`, wrote the registers `regs`, and nothing else but PC. -/
structure Stored (width : Nat) (a : Word) (regs : List RegNum) (inhibit : Bool) (s t : State) : Prop where
  frame : Frame regs [] [] 0 s t
  memory : MemKeptOutside a width s t
  done : Completed inhibit s t

/-- The instruction wrote `v` to a special register, and nothing else but PC; the interrupt inhibit is as given. -/
structure WroteSpecial (r : Special) (v : Word) (inhibit : Bool) (s t : State) : Prop where
  result : t.special r = v
  frame : Frame [] [] [r] 0 s t
  memory : MemKept s t
  done : Completed inhibit s t

/-- The instruction wrote the 64-bit value `v` to MACH and MACL, and nothing else but PC. -/
structure WroteMac (v : BitVec 64) (s t : State) : Prop where
  result : t.mach ++ t.macl = v
  frame : Frame [] [] [.mach, .macl] 0 s t
  memory : MemKept s t
  done : Completed false s t

/-- The instruction wrote `v` to Rn and, where Rm is another register, `p` to Rm, and nothing else but PC. -/
structure WroteRegPair (n : RegNum) (v : Word) (m : RegNum) (p : Word) (s t : State) : Prop where
  result : t.reg n = v
  pointer : m ≠ n → t.reg m = p
  frame : Frame [n, m] [] [] 0 s t
  memory : MemKept s t
  done : Completed false s t

/-- A branch instruction has executed: PC and the pending branch are as given, `specials` may have changed, and
nothing else but PC has (R241, R247, R248, 44_branch). -/
structure Branched (pc : Word) (slot : Slot) (specials : List Special) (s t : State) : Prop where
  pc : t.pc = pc
  slot : t.slot = slot
  inhibit : t.inhibit = false
  proc : t.proc = s.proc
  frame : Frame [] [] specials 0 s t
  memory : MemKept s t

/-- An exception was entered with the given vector, stacked PC and SR after it (R410, 60_exceptions): R15 lowered by
8, SR and the stacked PC at its old value less 4 and less 8 (where RAM takes them), PC from the vector table, no
pending branch, no inhibit, running; every other register and every other byte as before. -/
structure TookException (vector : BitVec 8) (stackedPc srAfter : Word) (s t : State) : Prop where
  pc : t.pc = t.longAt 3 (s.vectorAddr vector)
  sp : t.reg spNum = s.reg spNum - 8
  sr : t.sr = srAfter
  savedSr : ∀ k, s.InRam 4 (s.reg spNum - 4) → t.longAt k (s.reg spNum - 4) = s.sr
  savedPc : ∀ k, s.InRam 4 (s.reg spNum - 8) → t.longAt k (s.reg spNum - 8) = stackedPc
  frame : Frame [spNum] [] [] 0xFFFFFFFF s t
  memory : MemKeptOutside (s.reg spNum - 8) 8 s t
  slot : t.slot = .none
  inhibit : t.inhibit = false
  proc : t.proc = .run

/-- The address error exception of an access of `width` bytes at `a` was taken (R406, 60_exceptions; R55, 20_memory;
assumptions 5, 8, 9): with the vector and the stacked PC that the parameters give, from a state `u` that is the old
one but, after a write, for the bytes of the aligned longwords that the access reaches into. -/
def TookAddressError (a : Word) (kind : AccessKind) (width : Nat) (plain : StackedPcPlain) (slot : StackedPcSlot)
    (s t : State) : Prop :=
  ∃ u : State, Frame [] [] [] 0 s u ∧ (kind ≠ .write → u = s) ∧
    (∀ k b, b &&& 0xFFFFFFFC ≠ a &&& 0xFFFFFFFC → b &&& 0xFFFFFFFC ≠ (a + BitVec.ofNat 32 (width - 1)) &&& 0xFFFFFFFC →
      u.byteAt k b = s.byteAt k b) ∧
    TookException s.params.vecAddressError (s.stackedPc plain slot) s.sr u t

/-- The accesses of an exception entry complete: both pushes and, after them, the read of the vector (R410, R412). -/
def State.EntryReady (s : State) (vector : BitVec 8) : Prop :=
  s.Writable 4 (s.reg spNum - 4) ∧ s.Writable 4 (s.reg spNum - 8) ∧ s.Readable 4 (s.vectorAddr vector)

/-! ### Which instructions may write what -/

/-- The instructions that R17 (10_state) lists as writing T. -/
def mayWriteT (i : Instr) : Bool :=
  match i with
  | .addc _ _ | .addv _ _ | .cmpEqImm _ | .cmpEq _ _ | .cmpHs _ _ | .cmpGe _ _ | .cmpHi _ _ | .cmpGt _ _ | .cmpPl _
  | .cmpPz _ | .cmpStr _ _ | .div0s _ _ | .div0u | .div1 _ _ | .dt _ | .negc _ _ | .subc _ _ | .subv _ _ | .tasB _
  | .tstReg _ _ | .tstImm _ | .tstB _ | .rotl _ | .rotcl _ | .shal _ | .shll _ | .rotr _ | .rotcr _ | .shar _
  | .shlr _ | .clrt | .sett | .ldcSr _ | .ldcLSr _ | .rte | .fcmpEq _ _ | .fcmpGt _ _ => true
  | _ => false

/-- The three instructions that load SR (R18, 10_state; R272, 45_system_control). -/
def loadsSr (i : Instr) : Bool :=
  match i with
  | .ldcSr _ | .ldcLSr _ | .rte => true
  | _ => false

/-- The division-step instructions, which alone write Q and M beside the loads of SR (R19, 10_state). -/
def dividesStep (i : Instr) : Bool :=
  match i with
  | .div0s _ _ | .div0u | .div1 _ _ => true
  | _ => false

/-- The instructions that may write a special register (R14, R15, R22, R23, R28, R30, R31, 10_state; R314,
46_floating_point). -/
def mayWriteSpecial (i : Instr) (r : Special) : Bool :=
  match r, i with
  | .gbr, .ldcGbr _ | .gbr, .ldcLGbr _ => true
  | .vbr, .ldcVbr _ | .vbr, .ldcLVbr _ => true
  | .mach, .dmulsL _ _ | .mach, .dmuluL _ _ | .mach, .macL _ _ | .mach, .macW _ _ | .mach, .clrmac
  | .mach, .ldsMach _ | .mach, .ldsLMach _ => true
  | .macl, .mulL _ _ | .macl, .mulsW _ _ | .macl, .muluW _ _ | .macl, .dmulsL _ _ | .macl, .dmuluL _ _
  | .macl, .macL _ _ | .macl, .macW _ _ | .macl, .clrmac | .macl, .ldsMacl _ | .macl, .ldsLMacl _ => true
  | .pr, .bsr _ | .pr, .bsrf _ | .pr, .jsr _ | .pr, .ldsPr _ | .pr, .ldsLPr _ => true
  | .fpul, .ldsFpul _ | .fpul, .ldsLFpul _ | .fpul, .flds _ | .fpul, .ftrc _ => true
  | .fpscr, .ldsFpscr _ | .fpscr, .ldsLFpscr _ | .fpscr, .fabs _ | .fpscr, .fadd _ _ | .fpscr, .fcmpEq _ _
  | .fpscr, .fcmpGt _ _ | .fpscr, .fdiv _ _ | .fpscr, .float _ | .fpscr, .fmac _ _ | .fpscr, .fmul _ _
  | .fpscr, .fneg _ | .fpscr, .fsub _ _ | .fpscr, .ftrc _ => true
  | _, _ => false

/-- The instructions that R27 (10_state) lists as writing a floating-point register, with the register. -/
def writesFreg (i : Instr) : Option FRegNum :=
  match i with
  | .fadd _ n | .fsub _ n | .fmul _ n | .fdiv _ n | .fmac _ n | .fabs n | .fneg n | .fldi0 n | .fldi1 n | .float n
  | .fsts n | .fmov _ n | .fmovLoadIdx _ n | .fmovLoadInc _ n | .fmovLoad _ n => some n
  | _ => none

/-- The two instructions that load FPSCR (R30, 10_state). -/
def loadsFpscr (i : Instr) : Bool :=
  match i with
  | .ldsFpscr _ | .ldsLFpscr _ => true
  | _ => false

/-- The delayed branch instructions (R241, 44_branch). -/
def delayed (i : Instr) : Bool :=
  match i with
  | .bfS _ | .btS _ | .bra _ | .braf _ | .bsr _ | .bsrf _ | .jmp _ | .jsr _ | .rts | .rte => true
  | _ => false

/-- The first data access of an instruction: what it is for, its width in bytes and its address (R58, R69,
20_memory).  None for an instruction that accesses no data. -/
def firstAccess (i : Instr) (s : State) : Option (AccessKind × Nat × Word) :=
  match i with
  | .movWPcRel disp _ => some (.read, 2, s.eaPcWord disp)
  | .movLPcRel disp _ => some (.read, 4, s.eaPcLong disp)
  | .movBStore _ n => some (.write, 1, s.reg n)
  | .movWStore _ n => some (.write, 2, s.reg n)
  | .movLStore _ n => some (.write, 4, s.reg n)
  | .movBLoad m _ => some (.read, 1, s.reg m)
  | .movWLoad m _ => some (.read, 2, s.reg m)
  | .movLLoad m _ => some (.read, 4, s.reg m)
  | .movBStoreDec _ n => some (.write, 1, s.eaPreDec n 1)
  | .movWStoreDec _ n => some (.write, 2, s.eaPreDec n 2)
  | .movLStoreDec _ n => some (.write, 4, s.eaPreDec n 4)
  | .movBLoadInc m _ => some (.read, 1, s.reg m)
  | .movWLoadInc m _ => some (.read, 2, s.reg m)
  | .movLLoadInc m _ => some (.read, 4, s.reg m)
  | .movBStoreDisp disp n => some (.write, 1, s.eaDisp n disp 1)
  | .movWStoreDisp disp n => some (.write, 2, s.eaDisp n disp 2)
  | .movLStoreDisp _ disp n => some (.write, 4, s.eaDisp n disp 4)
  | .movBLoadDisp disp m => some (.read, 1, s.eaDisp m disp 1)
  | .movWLoadDisp disp m => some (.read, 2, s.eaDisp m disp 2)
  | .movLLoadDisp disp m _ => some (.read, 4, s.eaDisp m disp 4)
  | .movBStoreIdx _ n => some (.write, 1, s.eaIndexed n)
  | .movWStoreIdx _ n => some (.write, 2, s.eaIndexed n)
  | .movLStoreIdx _ n => some (.write, 4, s.eaIndexed n)
  | .movBLoadIdx m _ => some (.read, 1, s.eaIndexed m)
  | .movWLoadIdx m _ => some (.read, 2, s.eaIndexed m)
  | .movLLoadIdx m _ => some (.read, 4, s.eaIndexed m)
  | .movBStoreGbr disp => some (.write, 1, s.eaGbr disp 1)
  | .movWStoreGbr disp => some (.write, 2, s.eaGbr disp 2)
  | .movLStoreGbr disp => some (.write, 4, s.eaGbr disp 4)
  | .movBLoadGbr disp => some (.read, 1, s.eaGbr disp 1)
  | .movWLoadGbr disp => some (.read, 2, s.eaGbr disp 2)
  | .movLLoadGbr disp => some (.read, 4, s.eaGbr disp 4)
  | .macL _ n => some (.read, 4, s.reg n)
  | .macW _ n => some (.read, 2, s.reg n)
  | .andB _ | .orB _ | .xorB _ | .tstB _ => some (.read, 1, s.eaGbrIndexed)
  | .tasB n => some (.read, 1, s.reg n)
  | .ldcLSr m | .ldcLGbr m | .ldcLVbr m | .ldsLMach m | .ldsLMacl m | .ldsLPr m | .ldsLFpscr m | .ldsLFpul m =>
    some (.read, 4, s.reg m)
  | .stcLSr n | .stcLGbr n | .stcLVbr n | .stsLMach n | .stsLMacl n | .stsLPr n | .stsLFpscr n | .stsLFpul n =>
    some (.write, 4, s.eaPreDec n 4)
  | .rte => some (.read, 4, s.reg spNum)
  | .trapa _ => some (.write, 4, s.reg spNum - 4)
  | .fmovLoadIdx m _ => some (.read, 4, s.eaIndexed m)
  | .fmovLoadInc m _ => some (.read, 4, s.reg m)
  | .fmovLoad m _ => some (.read, 4, s.reg m)
  | .fmovStoreIdx _ n => some (.write, 4, s.eaIndexed n)
  | .fmovStoreDec _ n => some (.write, 4, s.eaPreDec n 4)
  | .fmovStore _ n => some (.write, 4, s.reg n)
  | _ => none

/-! ### Outcomes -/

/-- The instruction completes in the state: it answers a next state, of which `P` holds. -/
def Completes (i : Instr) (s : State) (P : State → Prop) : Prop := ∃ t, exec i s = .next t ∧ P t

/-- The code stands for the instruction, and in the state the instruction completes as `P` says. -/
def Means (code : Half) (i : Instr) (s : State) (P : State → Prop) : Prop := decode code = .ok i ∧ Completes i s P

/-- The code stands for the instruction; where its access of `width` bytes at `a` can be made it completes as `P`
says, and where `a` is misaligned it raises the address error (R54, R56, 20_memory; R406, 60_exceptions). -/
structure Accesses (code : Half) (i : Instr) (kind : AccessKind) (width : Nat) (a : Word) (s : State)
    (P : State → Prop) : Prop where
  decoded : decode code = .ok i
  completes : (if kind = .write then s.Writable width a else s.Readable width a) → Completes i s P
  raises : a.toNat % width ≠ 0 → exec i s = raiseMem (.misaligned a kind width) s

/-- The code stands for the instruction; outside a delay slot it completes as `P` says, and in one it raises the
illegal instruction exception (R243, 44_branch). -/
structure Branches (code : Half) (i : Instr) (s : State) (P : State → Prop) : Prop where
  decoded : decode code = .ok i
  completes : s.slot = .none → Completes i s P
  illegal : s.slot ≠ .none → exec i s = raiseIllegal s

/-- No reset is presented at this boundary and no interrupt is accepted (R403, 60_exceptions). -/
def State.NothingAccepted (s : State) : Prop :=
  match s.inputs.head? with
  | some (.reset _) => False
  | some (.request irq) => s.accepts irq = false
  | _ => True

/-- A normalized number: the biased exponent is neither 0 nor 255 (NORM, R311). -/
def FpNorm (v : Word) : Prop := 1 ≤ fpExponent v ∧ fpExponent v ≤ 254

/-- `w` is the exact magnitude `num / den`, in units of 2^-149, with its sign, truncated to the format (R318): below
the smallest normalized magnitude the zero of the sign; else the normalized number of the sign with the greatest
magnitude that does not exceed it, which above the range is the largest finite number. -/
def TruncatedTo (sign : Bool) (num den : Nat) (w : Word) : Prop :=
  (num < 2 ^ 23 * den → w = fpZero sign) ∧
  (2 ^ 23 * den ≤ num → fpSign w = sign ∧ FpNorm w ∧ fpMag w * den ≤ num ∧
    ∀ v : Word, FpNorm v → fpMag v * den ≤ num → fpMag v ≤ fpMag w)

/-- The outcome is the exact signed number of `1 / den` units of 2^-149, truncated; an exact zero gives +0 (R318, R319,
46_floating_point; assumption 29). -/
def TruncatesTo (r : FpResult) (x : Int) (den : Nat) : Prop :=
  ∃ w, r = .value w ∧ TruncatedTo (decide (x < 0)) x.natAbs den w

/-- The value a floating-point outcome writes to its destination when no enabled exception stops it (R315, R316,
46_floating_point). -/
def fpWritten (r : FpResult) : Word :=
  match r with
  | .value v => v
  | .invalid => 0x7FBFFFFF
  | .divByZero sign => if sign then 0xFF800000 else 0x7F800000

/-- FPSCR after a floating-point outcome: CV and CZ cleared, then the cause and flag of the outcome set (R314 to R316):
CV is bit 16, CZ 15, FV 6, FZ 5. -/
def fpscrAfter (r : FpResult) (s : State) : Word :=
  match r with
  | .value _ => s.fpscr &&& 0xFFFE7FFF
  | .invalid => (s.fpscr &&& 0xFFFE7FFF) ||| 0x00010040
  | .divByZero _ => (s.fpscr &&& 0xFFFE7FFF) ||| 0x00008020

/-- No enabled exception stops the outcome: EV for an invalid operation, EZ for a division by zero (R315, R316). -/
def FpQuiet (r : FpResult) (s : State) : Prop :=
  match r with
  | .value _ => True
  | .invalid => s.ev = false
  | .divByZero _ => s.ez = false

/-- An enabled exception stops the outcome. -/
def FpTraps (r : FpResult) (s : State) : Prop :=
  match r with
  | .value _ => False
  | .invalid => s.ev = true
  | .divByZero _ => s.ez = true

/-- The instruction wrote `v` to FRn and `fpscr` to FPSCR, and nothing else but PC. -/
structure WroteFp (n : FRegNum) (v fpscr : Word) (s t : State) : Prop where
  result : t.freg n = v
  status : t.fpscr = fpscr
  frame : Frame [] [n] [.fpscr] 0 s t
  memory : MemKept s t
  done : Completed false s t

end Sys2Proof.Machine
end

