-- ==== Sys2Proof/Certificates/Slice0/Obligations.lean ====
section
/-! DEFINITION. The statements for the provers, in the order of OBLIGATIONS.json.  `Means`, `Accesses` and `Branches`
(Safety.lean) say that a code decodes to an instruction and that the instruction completes; `Frame` and the
structures built on it say what it leaves unchanged. -/

section

open Sys2Proof Sys2Proof.Machine

/-! ### Codes (30_encoding) -/

/-- Every instruction is read back from its code, and from the two bytes of its code in either byte order. -/
def Obligations.EncodingRoundTrip : Prop :=
  ∀ (i : Instr) (bigEndian : Bool) (rest : List Byte),
    decode (encode i) = .ok i ∧
    decodeBytes bigEndian (bytesOfCode bigEndian (encode i) ++ rest) = .ok (i, rest)

/-- A code that decodes is the code of the instruction it decodes to, so each instruction has one code. -/
def Obligations.DecodeIsUnambiguous : Prop :=
  ∀ (w : Half) (i : Instr), decode w = .ok i → encode i = w

/-- The decoder answers a code exactly where it matches a row of the opcode table, with an instruction of that row;
a row is its mask and match columns. -/
def Obligations.DecodeFollowsTable : Prop :=
  ∀ (w : Half) (i : Instr),
    (decode w = .ok i → w &&& i.tableMask = i.tableMatch) ∧
    (w &&& i.tableMask = i.tableMatch →
      ∃ j, decode w = .ok j ∧ j.tableMask = i.tableMask ∧ j.tableMatch = i.tableMatch)

/-- Codes the spec prints, one or more of each family, decode to the instructions it prints beside them; three
unassigned codes do not decode. -/
def Obligations.SpecCodesDecode : Prop :=
  decode 0xE180 = .ok (.movImm 0x80 1) ∧ decode 0x2FE6 = .ok (.movLStoreDec 14 15) ∧
  decode 0x5102 = .ok (.movLLoadDisp 2 0 1) ∧ decode 0xC701 = .ok (.mova 1) ∧
  decode 0x313E = .ok (.addc 3 1) ∧ decode 0x010F = .ok (.macL 0 1) ∧ decode 0x4510 = .ok (.dt 5) ∧
  decode 0xCD80 = .ok (.andB 0x80) ∧ decode 0x471B = .ok (.tasB 7) ∧
  decode 0x4028 = .ok (.shll16 0) ∧
  decode 0x8BFE = .ok (.bf 0xFE) ∧ decode 0xAFFE = .ok (.bra 0xFFE) ∧ decode 0x0103 = .ok (.bsrf 1) ∧
  decode 0x4F17 = .ok (.ldcLGbr 15) ∧ decode 0xC320 = .ok (.trapa 0x20) ∧ decode 0x002B = .ok .rte ∧
  decode 0xF563 = .ok (.fdiv 6 5) ∧ decode 0xF34B = .ok (.fmovStoreDec 4 3) ∧ decode 0xF63D = .ok (.ftrc 6) ∧
  decode 0x446A = .ok (.ldsFpscr 4) ∧ decode 0x4752 = .ok (.stsLFpul 7) ∧
  decode 0x0000 = .error (.unassigned 0x0000) ∧ decode 0xFFFF = .error (.unassigned 0xFFFF) ∧
  decode 0x8300 = .error (.unassigned 0x8300)

/-! ### One boundary (60_exceptions section 1) -/

/-- Where no reset and no interrupt is accepted and the CPU runs, a step executes the instruction that the code at
PC decodes to, in the state with this boundary's input taken off the list and the boundary counter moved on; that
state differs from the old one in nothing else. -/
def Obligations.StepRunsDecoded : Prop :=
  ∀ (s : State) (i : Instr), s.NothingAccepted → s.proc = .run → s.Readable 2 s.pc → s.staleCode = false →
    decode (s.beginStep.halfAt 0 s.pc) = .ok i →
    step s = exec i s.beginStep ∧
    s.beginStep = { s with inputs := s.inputs.drop 1, tick := s.tick + 1 }

/-- An unassigned code raises the general illegal instruction exception outside a delay slot and the slot illegal
instruction exception in one, with the stacked PC that the parameters choose.  The stack frame of TRAPA and the
unchanged SR are the spec's decision D4 for these exceptions (assumption 5).  In the slot of a not-taken BF/S or BT/S
(only under UNTAKEN_SLOT_IS_SLOT) the target counts as `pc + 2` (assumption 23). -/
def Obligations.UnassignedCodesAreIllegal : Prop :=
  ∀ (s : State), s.NothingAccepted → s.proc = .run → s.Readable 2 s.pc → s.staleCode = false →
    (∀ i, decode (s.beginStep.halfAt 0 s.pc) ≠ .ok i) → s.mem.wf = true →
    (s.slot = .none → s.EntryReady s.params.vecIllegal →
      ∃ t, step s = .next t ∧
        TookException s.params.vecIllegal (s.plainStackedPc s.params.stackedPcIllegal) s.sr s.beginStep t) ∧
    (∀ target, s.slot = .pending target ∨ s.slot = .untaken ∧ target = s.pc + 2 →
      s.EntryReady s.params.vecSlotIllegal →
      ∃ t, step s = .next t ∧
        TookException s.params.vecSlotIllegal (s.slotStackedPc s.params.stackedPcSlotIllegal target) s.sr
          s.beginStep t)

/-- The 13 instructions that rewrite PC raise the slot illegal instruction exception in a delay slot; the 30
instructions that need the FPU are illegal instructions while it is stopped, general outside a delay slot and slot
illegal in one.  Neither does anything else.  The stack frame of TRAPA and the unchanged SR are the spec's decision D4
for these exceptions (assumption 5).  In the slot of a not-taken BF/S or BT/S (only under UNTAKEN_SLOT_IS_SLOT) the
target counts as `pc + 2` (assumption 23). -/
def Obligations.SlotAndStoppedFpuIllegal : Prop :=
  ∀ (i : Instr) (s : State), s.mem.wf = true →
    (∀ target, s.slot = .pending target ∨ s.slot = .untaken ∧ target = s.pc + 2 →
      i.rewritesPc = true ∨ i.usesFpu = true ∧ s.fpuStopped = true →
      s.EntryReady s.params.vecSlotIllegal →
      ∃ t, exec i s = .next t ∧
        TookException s.params.vecSlotIllegal (s.slotStackedPc s.params.stackedPcSlotIllegal target) s.sr s t) ∧
    (s.slot = .none → i.usesFpu = true → s.fpuStopped = true → s.EntryReady s.params.vecIllegal →
      ∃ t, exec i s = .next t ∧
        TookException s.params.vecIllegal (s.plainStackedPc s.params.stackedPcIllegal) s.sr s t)

/-- Which interrupt requests are accepted: NMI, and a level above I3-I0; never before a slot instruction and never
right after an interrupt-disabled instruction.  A request that is not accepted changes nothing: the step is the one
without it.  The comparison with I3-I0 is the spec's decision D5 from general knowledge (assumption 11). -/
def Obligations.InterruptAcceptance : Prop :=
  ∀ (s : State) (irq : IrqRequest), s.inputs.head? = some (.request irq) →
    (s.slot = .none → s.inhibit = false →
      (match irq with
        | .nmi => True
        | .userBreak level => s.imask.toNat < level.toNat
        | .maskable level _ => s.imask.toNat < level.toNat) →
      step s = enterInterrupt irq s.beginStep) ∧
    (s.slot ≠ .none ∨ s.inhibit = true ∨
      (match irq with
        | .nmi => False
        | .userBreak level => level.toNat ≤ s.imask.toNat
        | .maskable level _ => level.toNat ≤ s.imask.toNat) →
      step s = step { s with inputs := .quiet :: s.inputs.drop 1 })

/-- Interrupt entry, from program execution and from sleep: SR and the address of the next instruction are pushed,
I3-I0 become the level of the request (15 for NMI), and control goes to the vector of the request.  The stack frame
and the stacked PC are the spec's decision D4 (R410, R411; assumption 5), the entry from sleep with the address after
SLEEP is its decision D11 (assumption 20), and the new I3-I0 are its decision D4 from general knowledge (assumption
12). -/
def Obligations.InterruptEntry : Prop :=
  ∀ (s : State) (irq : IrqRequest), s.inputs.head? = some (.request irq) → s.accepts irq = true →
    s.mem.wf = true → s.EntryReady (irqVector irq s.params) →
    ∃ t, step s = .next t ∧
      TookException (irqVector irq s.params) s.pc (s.sr &&& 0xFFFFFF0F ||| (irqLevel irq).setWidth 32 <<< 4)
        s.beginStep t ∧
      t.imask = (match irq with
        | .nmi => 15
        | .userBreak level => level
        | .maskable level _ => level)

/-- SLEEP enters sleep mode and changes nothing else but PC; the CPU asleep stays so, with everything as it was, at
every boundary that accepts no reset and no interrupt.  That a masked request does not end sleep and that PC ends at the
next instruction, or the branch target in a slot, are the spec's decision D11 (assumption 20); that SLEEP never enters
standby mode is the model's choice (assumption 36). -/
def Obligations.SleepWaits : Prop :=
  (∀ s : State, Means 0x001B .sleep s fun t =>
    t.proc = .sleep ∧ t.pc = s.nextPc ∧ t.slot = .none ∧ t.inhibit = false ∧ Frame [] [] [] 0 s t ∧
      MemKept s t) ∧
  ∀ s : State, s.NothingAccepted → s.proc = .sleep → step s = .next s.beginStep

/-- A reset input, whatever the CPU was doing: VBR, the interrupt mask, the reserved bits of SR and FPSCR as the spec
says, PC and R15 from the vector table at address 0, nothing pending, running, memory as it was.  The entries are
parameters (assumption 13); that memory is as it was is the model's choice (assumption 15); the hidden state (no pending
branch, no inhibit, running) is derived in the spec (assumption 43). -/
def Obligations.ResetInput : Prop :=
  ∀ (s : State) (kind : ResetKind), s.inputs.head? = some (.reset kind) →
    s.Readable 4 ((resetPcEntry s.params kind).setWidth 32 * 4) →
    s.Readable 4 ((resetSpEntry s.params kind).setWidth 32 * 4) →
    ∃ t, step s = .next t ∧
      t.pc = s.beginStep.longAt 1 ((resetPcEntry s.params kind).setWidth 32 * 4) ∧
      t.reg spNum = s.beginStep.longAt 2 ((resetSpEntry s.params kind).setWidth 32 * 4) ∧
      t.vbr = 0 ∧ t.imask = 15 ∧ t.sr &&& 0xF000F000 = 0 ∧ t.fpscr = 0x00040001 ∧
      t.slot = .none ∧ t.inhibit = false ∧ t.proc = .run ∧ t.fpuStopped = false ∧ t.mem = s.mem

/-! ### Invariants -/

/-- Every step keeps the invariant of Safety.lean. -/
def Obligations.StepInvariant : Prop :=
  ∀ s t : State, s.Inv → step s = .next t → t.Inv

/-- The invariant holds after reset. -/
def Obligations.ResetInvariant : Prop := State.reset.Inv

/-- The values Table 2.1 gives for reset: I3-I0, the reserved bits of SR, VBR and FPSCR; PC and R15 are what the vector
table holds.  Which entries of it are read is presumed (assumption 13); the hidden state (no pending branch, no inhibit,
running) is the spec's own inference in R38 and not Table 2.1's (assumption 43). -/
def Obligations.ResetValues : Prop :=
  State.reset.imask = 15 ∧ State.reset.sr &&& 0xF000F000 = 0 ∧ State.reset.vbr = 0 ∧
  State.reset.fpscr = 0x00040001 ∧ State.reset.slot = .none ∧ State.reset.inhibit = false ∧
  State.reset.proc = .run ∧ State.reset.fpuStopped = false ∧
  State.reset.pc =
    State.reset.longAt 1 (State.reset.vectorAddr (resetPcEntry State.reset.params .powerOn)) ∧
  State.reset.reg spNum =
    State.reset.longAt 2 (State.reset.vectorAddr (resetSpEntry State.reset.params .powerOn))

/-- A step takes one input off the list, moves the boundary counter on by one, and changes no parameter; only a reset
input changes the FPU module stop.  The input list and the counter are the model's own (assumptions 11, 42); that
nothing but a reset changes the module stop is the spec's decision D10 (assumption 19). -/
def Obligations.EnvironmentIsConstant : Prop :=
  ∀ s t : State, step s = .next t →
    t.params = s.params ∧ t.inputs = s.inputs.drop 1 ∧ t.tick = s.tick + 1 ∧
    ((∀ kind, s.inputs.head? ≠ some (.reset kind)) → t.fpuStopped = s.fpuStopped)

/-! ### Which instructions write what (10_state), over all instructions -/

/-- No instruction but those R17 lists changes T, whether it completes or takes an exception. -/
def Obligations.TBitWriters : Prop :=
  ∀ (i : Instr) (s t : State), mayWriteT i = false → exec i s = .next t → t.t = s.t

/-- Only the loads of SR change a bit of SR other than T, Q and M, and only they and the division steps change Q
and M. -/
def Obligations.SrWriters : Prop :=
  ∀ (i : Instr) (s t : State), loadsSr i = false → exec i s = .next t →
    t.sr &&& ~~~srTQM = s.sr &&& ~~~srTQM ∧
    (dividesStep i = false → t.q = s.q ∧ t.m = s.m)

/-- GBR, VBR, MACH, MACL, PR, FPUL and FPSCR are changed by no instruction but those their rules list.  That FLDS
leaves FPSCR is the spec's decision D21, its operation code being missing (assumption 25). -/
def Obligations.SpecialRegisterWriters : Prop :=
  ∀ (i : Instr) (r : Special) (s t : State), mayWriteSpecial i r = false → exec i s = .next t →
    t.special r = s.special r

/-- No instruction changes a floating-point register but the one it names as its destination. -/
def Obligations.FloatRegisterWriters : Prop :=
  ∀ (i : Instr) (r : FRegNum) (s t : State), writesFreg i ≠ some r → exec i s = .next t → t.freg r = s.freg r

/-- Without a load of FPSCR, FV and FZ once set stay set, and no bit but CV, CZ, FV and FZ changes. -/
def Obligations.FpscrFlagsAreSticky : Prop :=
  ∀ (i : Instr) (s t : State), loadsFpscr i = false → exec i s = .next t →
    (s.fv = true → t.fv = true) ∧ (s.fz = true → t.fz = true) ∧
    t.fpscr &&& ~~~(0x00018060 : Word) = s.fpscr &&& ~~~(0x00018060 : Word)

/-- A branch is pending only after a delayed branch that stood outside a delay slot; its slot instruction is the next
in memory.  The slot of a not-taken BF/S or BT/S exists only under its parameter. -/
def Obligations.PendingBranches : Prop :=
  ∀ (i : Instr) (s t : State), exec i s = .next t →
    (∀ target, t.slot = .pending target →
      delayed i = true ∧ s.slot = .none ∧ t.pc = s.pc + 2 ∧ t.inhibit = false) ∧
    (t.slot = .untaken →
      s.params.untakenSlotIsSlot = true ∧ delayed i = true ∧ s.slot = .none ∧ t.pc = s.pc + 2)

/-- The interrupt inhibit is set by the 24 interrupt-disabled instructions and by no other; sleep mode is entered by
SLEEP and by no other instruction.  That the FPU forms of LDS and STS do not set the inhibit is the spec's decision D22
(assumption 31); the clauses on sleep lean on its decision D11 and on standby mode being left out (assumptions 20,
36). -/
def Obligations.InhibitAndSleepWriters : Prop :=
  ∀ (i : Instr) (s t : State), exec i s = .next t →
    (t.inhibit = true → i.inhibitsInterrupts = true) ∧
    (i.inhibitsInterrupts = true → s.params.stackedPcAddressError = none → t.inhibit = true) ∧
    (t.proc = .sleep → i = .sleep ∨ s.proc = .sleep) ∧ (i = .sleep → t.proc = .sleep)

/-! ### Memory (20_memory) -/

/-- What a store puts into RAM is what a load of the same width then delivers, and every byte outside it reads as
before. -/
def Obligations.StoreThenLoad : Prop :=
  ∀ (s : State) (a : Word) (k : Nat), s.mem.wf = true →
    (∀ (v : Byte) (t : State), s.storeByte a v = .ok t → s.InRam 1 a →
      t.loadByte k a = .ok v ∧ MemKeptOutside a 1 s t) ∧
    (∀ (v : Half) (t : State), s.storeHalf a v = .ok t → s.InRam 2 a →
      t.loadHalf k a = .ok v ∧ MemKeptOutside a 2 s t) ∧
    (∀ (v : Word) (t : State), s.storeLong a v = .ok t → s.InRam 4 a →
      t.loadLong k a = .ok v ∧ MemKeptOutside a 4 s t)

/-- The byte order: with BIG_ENDIAN the byte at the lowest address is the most significant one of a word or longword,
for loads and for stores into RAM; without it, the least significant.  The order is the spec's decision D1
(assumption 1). -/
def Obligations.ByteOrder : Prop :=
  ∀ (s : State) (a : Word) (k : Nat),
    (s.params.bigEndian = true →
      s.halfAt k a = s.byteAt k a ++ s.byteAt k (a + 1) ∧
      s.longAt k a = s.byteAt k a ++ s.byteAt k (a + 1) ++ s.byteAt k (a + 2) ++ s.byteAt k (a + 3)) ∧
    (s.params.bigEndian = false →
      s.halfAt k a = s.byteAt k (a + 1) ++ s.byteAt k a ∧
      s.longAt k a = s.byteAt k (a + 3) ++ s.byteAt k (a + 2) ++ s.byteAt k (a + 1) ++ s.byteAt k a) ∧
    (∀ v t, s.mem.wf = true → s.InRam 2 a → s.storeHalf a v = .ok t → s.params.bigEndian = true →
      t.byteAt k a = v.extractLsb' 8 8 ∧ t.byteAt k (a + 1) = v.extractLsb' 0 8) ∧
    (∀ v t, s.mem.wf = true → s.InRam 2 a → s.storeHalf a v = .ok t → s.params.bigEndian = false →
      t.byteAt k a = v.extractLsb' 0 8 ∧ t.byteAt k (a + 1) = v.extractLsb' 8 8) ∧
    (∀ v t, s.mem.wf = true → s.InRam 4 a → s.storeLong a v = .ok t → s.params.bigEndian = true →
      t.byteAt k a = v.extractLsb' 24 8 ∧ t.byteAt k (a + 1) = v.extractLsb' 16 8 ∧
      t.byteAt k (a + 2) = v.extractLsb' 8 8 ∧ t.byteAt k (a + 3) = v.extractLsb' 0 8) ∧
    (∀ v t, s.mem.wf = true → s.InRam 4 a → s.storeLong a v = .ok t → s.params.bigEndian = false →
      t.byteAt k a = v.extractLsb' 0 8 ∧ t.byteAt k (a + 1) = v.extractLsb' 8 8 ∧
      t.byteAt k (a + 2) = v.extractLsb' 16 8 ∧ t.byteAt k (a + 3) = v.extractLsb' 24 8)

/-- A word access at an odd address and a longword access at an address that is no multiple of 4 are address errors; a
byte access never is. -/
def Obligations.AlignmentErrors : Prop :=
  ∀ (s : State) (a : Word) (k : Nat),
    (s.loadHalf k a = .error (.misaligned a .read 2) ↔ a.getLsbD 0 = true) ∧
    (s.loadLong k a = .error (.misaligned a .read 4) ↔ a.extractLsb' 0 2 ≠ 0) ∧
    (∀ v, s.storeHalf a v = .error (.misaligned a .write 2) ↔ a.getLsbD 0 = true) ∧
    (∀ v, s.storeLong a v = .error (.misaligned a .write 4) ↔ a.extractLsb' 0 2 ≠ 0) ∧
    (∀ b kind width, s.loadByte k a ≠ .error (.misaligned b kind width)) ∧
    (∀ v b kind width, s.storeByte a v ≠ .error (.misaligned b kind width))

/-- Where the accesses of instructions and of exception entry stop the run, and the address error that is taken
instead.  A misaligned fetch or first access faults with its address and kind while no stacked PC for address errors
is given, which is the spec's decision D7 (assumption 8), and inside TRAPA and RTE in any case (D13, assumption 10);
where one is given, the address error is taken.  That MOV.W `@(disp,PC)` in the slot of a branch to an odd target is
such a misaligned access is the model's choice, R106 calling its operand always even (assumption 45).  An aligned
access faults where `mem_map` calls one of its bytes absent, or where it is a write and the map makes one of its bytes
faulting ROM (D8, assumption 17).  A fetch of an address stored to is refused while FETCH_COHERENT does not hold (D9,
assumption 18), where only stores into RAM count, which is the model's choice (assumption 47).  After a failed second
read of MAC.L or MAC.W, Rn has advanced or has not (assumption 28).  Then the write of the read-modify-write
instructions, the second read of RTE, and the three accesses of an entry, TRAPA's among them. -/
def Obligations.AccessStops : Prop :=
  (∀ s : State, s.NothingAccepted → s.proc = .run →
    (s.pc.getLsbD 0 = true → s.params.stackedPcAddressError = none →
      step s = .fault (.addressError s.pc .fetch)) ∧
    (∀ plain slot, s.pc.getLsbD 0 = true → s.params.stackedPcAddressError = some (plain, slot) → s.mem.wf = true →
      s.EntryReady s.params.vecAddressError →
      ∃ t, step s = .next t ∧ TookAddressError s.pc .fetch 2 plain slot s.beginStep t) ∧
    (s.pc.getLsbD 0 = false → (∃ j, j < 2 ∧ s.kindAt (s.pc + BitVec.ofNat 32 j) = .absent) →
      step s = .fault (.absentAddress s.pc)) ∧
    (s.Readable 2 s.pc → s.staleCode = true → step s = .refused (.storedCode s.pc))) ∧
  (∀ (i : Instr) (s : State) (kind : AccessKind) (width : Nat) (a : Word),
    firstAccess i s = some (kind, width, a) →
    (i.usesFpu = true → s.fpuStopped = false) → (i.rewritesPc = true → s.slot = .none) →
    (a.toNat % width ≠ 0 → s.params.stackedPcAddressError = none ∨ i.rewritesPc = true →
      exec i s = .fault (.addressError a kind)) ∧
    (∀ plain slot, a.toNat % width ≠ 0 → s.params.stackedPcAddressError = some (plain, slot) →
      i.rewritesPc = false → s.mem.wf = true → s.EntryReady s.params.vecAddressError →
      ∃ t, exec i s = .next t ∧ TookAddressError a kind width plain slot s t) ∧
    (a.toNat % width = 0 → (∃ j, j < width ∧ s.kindAt (a + BitVec.ofNat 32 j) = .absent) →
      exec i s = .fault (.absentAddress a)) ∧
    (kind = .write → s.Readable width a → (∃ j, j < width ∧ s.kindAt (a + BitVec.ofNat 32 j) = .romFault) →
      exec i s = .fault (.readOnlyWrite a))) ∧
  (∀ (i : Instr) (s : State) (m n : RegNum) (width : Nat) (q : Word),
    (i = .macL m n ∧ width = 4 ∨ i = .macW m n ∧ width = 2) → s.Readable width (s.reg n) →
    q = (if m = n then s.reg n + BitVec.ofNat 32 width else s.reg m) →
    (q.toNat % width ≠ 0 → s.params.stackedPcAddressError = none → exec i s = .fault (.addressError q .read)) ∧
    (∀ plain slot, q.toNat % width ≠ 0 → s.params.stackedPcAddressError = some (plain, slot) →
      s.mem.wf = true → s.EntryReady s.params.vecAddressError →
      (s.setReg n (s.reg n + BitVec.ofNat 32 width)).EntryReady s.params.vecAddressError →
      ∃ t, exec i s = .next t ∧
        (TookAddressError q .read width plain slot s t ∨
          TookAddressError q .read width plain slot (s.setReg n (s.reg n + BitVec.ofNat 32 width)) t)) ∧
    (q.toNat % width = 0 → (∃ j, j < width ∧ s.kindAt (q + BitVec.ofNat 32 j) = .absent) →
      exec i s = .fault (.absentAddress q))) ∧
  (∀ (i : Instr) (s : State) (imm : BitVec 8) (n : RegNum) (a : Word),
    (i = .andB imm ∨ i = .orB imm ∨ i = .xorB imm) ∧ a = s.gbr + s.reg 0 ∨ i = .tasB n ∧ a = s.reg n →
    s.kindAt a = .romFault → exec i s = .fault (.readOnlyWrite a)) ∧
  (∀ s : State, s.slot = .none → s.Readable 4 (s.reg spNum) →
    (∃ j, j < 4 ∧ s.kindAt (s.reg spNum + 4 + BitVec.ofNat 32 j) = .absent) →
    exec .rte s = .fault (.absentAddress (s.reg spNum + 4))) ∧
  ∀ (s : State) (vector : BitVec 8) (r : Result),
    (r = exec (.trapa vector) s ∧ s.slot = .none ∨ ∃ pc level, r = enterException vector pc level s) →
    ((s.reg spNum).toNat % 4 ≠ 0 → r = .fault (.addressError (s.reg spNum - 4) .write)) ∧
    (∀ a, a = s.reg spNum - 4 ∨ a = s.reg spNum - 8 ∧ s.Writable 4 (s.reg spNum - 4) → (s.reg spNum).toNat % 4 = 0 →
      ((∃ j, j < 4 ∧ s.kindAt (a + BitVec.ofNat 32 j) = .absent) → r = .fault (.absentAddress a)) ∧
      (s.Readable 4 a → (∃ j, j < 4 ∧ s.kindAt (a + BitVec.ofNat 32 j) = .romFault) →
        r = .fault (.readOnlyWrite a))) ∧
    (s.Writable 4 (s.reg spNum - 4) → s.Writable 4 (s.reg spNum - 8) →
      (s.vbr.toNat % 4 ≠ 0 → r = .fault (.addressError (s.vbr + vector.setWidth 32 * 4) .read)) ∧
      (s.vbr.toNat % 4 = 0 →
        (∃ j, j < 4 ∧ s.kindAt (s.vbr + vector.setWidth 32 * 4 + BitVec.ofNat 32 j) = .absent) →
        r = .fault (.absentAddress (s.vbr + vector.setWidth 32 * 4))))

/-! ### Data transfer (40_data_transfer) -/

/-- MOV #imm, MOV Rm,Rn, MOVT, SWAP.B, SWAP.W and XTRCT write their result to Rn and nothing else. -/
def Obligations.RegisterMoves : Prop :=
  ∀ (s : State) (m n : RegNum) (imm : BitVec 8),
    Means (nibblesByte 0xE n imm) (.movImm imm n) s (WroteReg n (imm.signExtend 32) s) ∧
    Means (nibbles 6 n m 3) (.movReg m n) s (WroteReg n (s.reg m) s) ∧
    Means (nibbles 0 n 2 9) (.movt n) s (WroteReg n (if s.t then 1 else 0) s) ∧
    Means (nibbles 6 n m 8) (.swapB m n) s (WroteReg n
      ((s.reg m).extractLsb' 16 16 ++ (s.reg m).extractLsb' 0 8 ++ (s.reg m).extractLsb' 8 8) s) ∧
    Means (nibbles 6 n m 9) (.swapW m n) s (WroteReg n
      ((s.reg m).extractLsb' 0 16 ++ (s.reg m).extractLsb' 16 16) s) ∧
    Means (nibbles 2 n m 0xD) (.xtrct m n) s (WroteReg n
      ((s.reg m).extractLsb' 0 16 ++ (s.reg n).extractLsb' 16 16) s)

/-- The PC-relative loads and MOVA: the PC operand is `pc + 4`, and in the slot of a taken branch its target plus 2;
with an even PC operand no access of them is misaligned. -/
def Obligations.PcRelativeForms : Prop :=
  ∀ (s : State) (n : RegNum) (disp : BitVec 8) (op : Word),
    (s.slot = .none ∧ op = s.pc + 4 ∨ (∃ target, s.slot = .pending target ∧ op = target + 2) ∨
      s.slot = .untaken ∧ op = s.pc + 4) →
    s.eaPcWord disp = op + disp.setWidth 32 * 2 ∧
    s.eaPcLong disp = (op &&& 0xFFFFFFFC) + disp.setWidth 32 * 4 ∧
    decode (nibblesByte 9 n disp) = .ok (.movWPcRel disp n) ∧
    (op.getLsbD 0 = false → (∀ j, j < 2 → s.kindAt (s.eaPcWord disp + BitVec.ofNat 32 j) ≠ .absent) →
      Completes (.movWPcRel disp n) s
        (WroteReg n ((s.halfAt 1 (op + disp.setWidth 32 * 2)).signExtend 32) s)) ∧
    decode (nibblesByte 0xD n disp) = .ok (.movLPcRel disp n) ∧
    ((∀ j, j < 4 → s.kindAt (s.eaPcLong disp + BitVec.ofNat 32 j) ≠ .absent) →
      Completes (.movLPcRel disp n) s
        (WroteReg n (s.longAt 1 ((op &&& 0xFFFFFFFC) + disp.setWidth 32 * 4)) s)) ∧
    Means (nibblesByte 0xC 7 disp) (.mova disp) s
      (WroteReg 0 ((op &&& 0xFFFFFFFC) + disp.setWidth 32 * 4) s)

/-- The twelve loads without address update: the byte or word read is sign-extended into the register. -/
def Obligations.Loads : Prop :=
  ∀ (s : State) (m n : RegNum) (d : BitVec 4) (e : BitVec 8),
    Accesses (nibbles 6 n m 0) (.movBLoad m n) .read 1 (s.reg m) s
      (WroteReg n ((s.byteAt 1 (s.reg m)).signExtend 32) s) ∧
    Accesses (nibbles 6 n m 1) (.movWLoad m n) .read 2 (s.reg m) s
      (WroteReg n ((s.halfAt 1 (s.reg m)).signExtend 32) s) ∧
    Accesses (nibbles 6 n m 2) (.movLLoad m n) .read 4 (s.reg m) s (WroteReg n (s.longAt 1 (s.reg m)) s) ∧
    Accesses (nibbles 8 4 m d) (.movBLoadDisp d m) .read 1 (s.reg m + d.setWidth 32 * 1) s
      (WroteReg 0 ((s.byteAt 1 (s.reg m + d.setWidth 32 * 1)).signExtend 32) s) ∧
    Accesses (nibbles 8 5 m d) (.movWLoadDisp d m) .read 2 (s.reg m + d.setWidth 32 * 2) s
      (WroteReg 0 ((s.halfAt 1 (s.reg m + d.setWidth 32 * 2)).signExtend 32) s) ∧
    Accesses (nibbles 5 n m d) (.movLLoadDisp d m n) .read 4 (s.reg m + d.setWidth 32 * 4) s
      (WroteReg n (s.longAt 1 (s.reg m + d.setWidth 32 * 4)) s) ∧
    Accesses (nibbles 0 n m 0xC) (.movBLoadIdx m n) .read 1 (s.reg m + s.reg 0) s
      (WroteReg n ((s.byteAt 1 (s.reg m + s.reg 0)).signExtend 32) s) ∧
    Accesses (nibbles 0 n m 0xD) (.movWLoadIdx m n) .read 2 (s.reg m + s.reg 0) s
      (WroteReg n ((s.halfAt 1 (s.reg m + s.reg 0)).signExtend 32) s) ∧
    Accesses (nibbles 0 n m 0xE) (.movLLoadIdx m n) .read 4 (s.reg m + s.reg 0) s
      (WroteReg n (s.longAt 1 (s.reg m + s.reg 0)) s) ∧
    Accesses (nibblesByte 0xC 4 e) (.movBLoadGbr e) .read 1 (s.gbr + e.setWidth 32 * 1) s
      (WroteReg 0 ((s.byteAt 1 (s.gbr + e.setWidth 32 * 1)).signExtend 32) s) ∧
    Accesses (nibblesByte 0xC 5 e) (.movWLoadGbr e) .read 2 (s.gbr + e.setWidth 32 * 2) s
      (WroteReg 0 ((s.halfAt 1 (s.gbr + e.setWidth 32 * 2)).signExtend 32) s) ∧
    Accesses (nibblesByte 0xC 6 e) (.movLLoadGbr e) .read 4 (s.gbr + e.setWidth 32 * 4) s
      (WroteReg 0 (s.longAt 1 (s.gbr + e.setWidth 32 * 4)) s)

/-- The twelve stores without address update: the low byte, the low word or the whole register goes to the address
(kept where it lies in RAM), and every other byte reads as before. -/
def Obligations.Stores : Prop :=
  ∀ (s : State) (m n : RegNum) (d : BitVec 4) (e : BitVec 8), s.mem.wf = true →
    Accesses (nibbles 2 n m 0) (.movBStore m n) .write 1 (s.reg n) s (fun t =>
      Stored 1 (s.reg n) [] false s t ∧
      (s.InRam 1 (s.reg n) → ∀ k, t.byteAt k (s.reg n) = (s.reg m).extractLsb' 0 8)) ∧
    Accesses (nibbles 2 n m 1) (.movWStore m n) .write 2 (s.reg n) s (fun t =>
      Stored 2 (s.reg n) [] false s t ∧
      (s.InRam 2 (s.reg n) → ∀ k, t.halfAt k (s.reg n) = (s.reg m).extractLsb' 0 16)) ∧
    Accesses (nibbles 2 n m 2) (.movLStore m n) .write 4 (s.reg n) s (fun t =>
      Stored 4 (s.reg n) [] false s t ∧
      (s.InRam 4 (s.reg n) → ∀ k, t.longAt k (s.reg n) = s.reg m)) ∧
    Accesses (nibbles 8 0 n d) (.movBStoreDisp d n) .write 1 (s.eaDisp n d 1) s (fun t =>
      Stored 1 (s.reg n + d.setWidth 32 * 1) [] false s t ∧
      (s.InRam 1 (s.eaDisp n d 1) → ∀ k, t.byteAt k (s.eaDisp n d 1) = (s.reg 0).extractLsb' 0 8)) ∧
    Accesses (nibbles 8 1 n d) (.movWStoreDisp d n) .write 2 (s.eaDisp n d 2) s (fun t =>
      Stored 2 (s.reg n + d.setWidth 32 * 2) [] false s t ∧
      (s.InRam 2 (s.eaDisp n d 2) → ∀ k, t.halfAt k (s.eaDisp n d 2) = (s.reg 0).extractLsb' 0 16)) ∧
    Accesses (nibbles 1 n m d) (.movLStoreDisp m d n) .write 4 (s.eaDisp n d 4) s (fun t =>
      Stored 4 (s.reg n + d.setWidth 32 * 4) [] false s t ∧
      (s.InRam 4 (s.eaDisp n d 4) → ∀ k, t.longAt k (s.eaDisp n d 4) = s.reg m)) ∧
    Accesses (nibbles 0 n m 4) (.movBStoreIdx m n) .write 1 (s.eaIndexed n) s (fun t =>
      Stored 1 (s.reg n + s.reg 0) [] false s t ∧
      (s.InRam 1 (s.eaIndexed n) → ∀ k, t.byteAt k (s.eaIndexed n) = (s.reg m).extractLsb' 0 8)) ∧
    Accesses (nibbles 0 n m 5) (.movWStoreIdx m n) .write 2 (s.eaIndexed n) s (fun t =>
      Stored 2 (s.reg n + s.reg 0) [] false s t ∧
      (s.InRam 2 (s.eaIndexed n) → ∀ k, t.halfAt k (s.eaIndexed n) = (s.reg m).extractLsb' 0 16)) ∧
    Accesses (nibbles 0 n m 6) (.movLStoreIdx m n) .write 4 (s.eaIndexed n) s (fun t =>
      Stored 4 (s.reg n + s.reg 0) [] false s t ∧
      (s.InRam 4 (s.eaIndexed n) → ∀ k, t.longAt k (s.eaIndexed n) = s.reg m)) ∧
    Accesses (nibblesByte 0xC 0 e) (.movBStoreGbr e) .write 1 (s.eaGbr e 1) s (fun t =>
      Stored 1 (s.gbr + e.setWidth 32 * 1) [] false s t ∧
      (s.InRam 1 (s.eaGbr e 1) → ∀ k, t.byteAt k (s.eaGbr e 1) = (s.reg 0).extractLsb' 0 8)) ∧
    Accesses (nibblesByte 0xC 1 e) (.movWStoreGbr e) .write 2 (s.eaGbr e 2) s (fun t =>
      Stored 2 (s.gbr + e.setWidth 32 * 2) [] false s t ∧
      (s.InRam 2 (s.eaGbr e 2) → ∀ k, t.halfAt k (s.eaGbr e 2) = (s.reg 0).extractLsb' 0 16)) ∧
    Accesses (nibblesByte 0xC 2 e) (.movLStoreGbr e) .write 4 (s.eaGbr e 4) s (fun t =>
      Stored 4 (s.gbr + e.setWidth 32 * 4) [] false s t ∧
      (s.InRam 4 (s.eaGbr e 4) → ∀ k, t.longAt k (s.eaGbr e 4) = s.reg 0))

/-- Loads with post-increment and stores with pre-decrement: Rm advances by the width unless it is the destination,
which keeps the data; Rn ends at the address stored to, and the stored value is Rm's before, also where Rm is Rn. -/
def Obligations.PointerUpdates : Prop :=
  ∀ (s : State) (m n : RegNum), s.mem.wf = true →
    Accesses (nibbles 6 n m 4) (.movBLoadInc m n) .read 1 (s.reg m) s
      (WroteRegPair n ((s.byteAt 1 (s.reg m)).signExtend 32) m (s.reg m + 1) s) ∧
    Accesses (nibbles 6 n m 5) (.movWLoadInc m n) .read 2 (s.reg m) s
      (WroteRegPair n ((s.halfAt 1 (s.reg m)).signExtend 32) m (s.reg m + 2) s) ∧
    Accesses (nibbles 6 n m 6) (.movLLoadInc m n) .read 4 (s.reg m) s
      (WroteRegPair n (s.longAt 1 (s.reg m)) m (s.reg m + 4) s) ∧
    Accesses (nibbles 2 n m 4) (.movBStoreDec m n) .write 1 (s.reg n - 1) s (fun t =>
      Stored 1 (s.reg n - 1) [n] false s t ∧ t.reg n = s.reg n - 1 ∧
      (s.InRam 1 (s.reg n - 1) → ∀ k, t.byteAt k (s.reg n - 1) = (s.reg m).extractLsb' 0 8)) ∧
    Accesses (nibbles 2 n m 5) (.movWStoreDec m n) .write 2 (s.reg n - 2) s (fun t =>
      Stored 2 (s.reg n - 2) [n] false s t ∧ t.reg n = s.reg n - 2 ∧
      (s.InRam 2 (s.reg n - 2) → ∀ k, t.halfAt k (s.reg n - 2) = (s.reg m).extractLsb' 0 16)) ∧
    Accesses (nibbles 2 n m 6) (.movLStoreDec m n) .write 4 (s.reg n - 4) s (fun t =>
      Stored 4 (s.reg n - 4) [n] false s t ∧ t.reg n = s.reg n - 4 ∧
      (s.InRam 4 (s.reg n - 4) → ∀ k, t.longAt k (s.reg n - 4) = s.reg m))

/-! ### Arithmetic (41_arithmetic) -/

/-- ADD, SUB, NEG and the extensions write their result to Rn and leave every flag. -/
def Obligations.AddSubtractExtend : Prop :=
  ∀ (s : State) (m n : RegNum) (imm : BitVec 8),
    Means (nibbles 3 n m 0xC) (.addReg m n) s (WroteReg n (s.reg n + s.reg m) s) ∧
    Means (nibblesByte 7 n imm) (.addImm imm n) s (WroteReg n (s.reg n + imm.signExtend 32) s) ∧
    Means (nibbles 3 n m 8) (.sub m n) s (WroteReg n (s.reg n - s.reg m) s) ∧
    Means (nibbles 6 n m 0xB) (.neg m n) s (WroteReg n (0 - s.reg m) s) ∧
    Means (nibbles 6 n m 0xE) (.extsB m n) s (WroteReg n (((s.reg m).extractLsb' 0 8).signExtend 32) s) ∧
    Means (nibbles 6 n m 0xF) (.extsW m n) s (WroteReg n (((s.reg m).extractLsb' 0 16).signExtend 32) s) ∧
    Means (nibbles 6 n m 0xC) (.extuB m n) s (WroteReg n (((s.reg m).extractLsb' 0 8).setWidth 32) s) ∧
    Means (nibbles 6 n m 0xD) (.extuW m n) s (WroteReg n (((s.reg m).extractLsb' 0 16).setWidth 32) s)

/-- ADDC, SUBC and NEGC: Rn and T together hold the exact sum or difference.  ADDV and SUBV: T says whether the exact
signed result leaves the range of a longword. -/
def Obligations.CarryAndOverflow : Prop :=
  ∀ (s : State) (m n : RegNum),
    Means (nibbles 3 n m 0xE) (.addc m n) s (fun t => WroteRegT n (t.reg n) t.t s t ∧
      (t.reg n).toNat + 2 ^ 32 * t.t.toNat = (s.reg n).toNat + (s.reg m).toNat + s.t.toNat) ∧
    Means (nibbles 3 n m 0xA) (.subc m n) s (fun t => WroteRegT n (t.reg n) t.t s t ∧
      ((t.reg n).toNat - 2 ^ 32 * t.t.toNat : Int) = (s.reg n).toNat - (s.reg m).toNat - s.t.toNat) ∧
    Means (nibbles 6 n m 0xA) (.negc m n) s (fun t => WroteRegT n (t.reg n) t.t s t ∧
      ((t.reg n).toNat - 2 ^ 32 * t.t.toNat : Int) = 0 - (s.reg m).toNat - s.t.toNat) ∧
    Means (nibbles 3 n m 0xF) (.addv m n) s (fun t => WroteRegT n (s.reg n + s.reg m) t.t s t ∧
      (t.t = true ↔ (s.reg n).toInt + (s.reg m).toInt < -2 ^ 31 ∨ 2 ^ 31 ≤ (s.reg n).toInt + (s.reg m).toInt)) ∧
    Means (nibbles 3 n m 0xB) (.subv m n) s (fun t => WroteRegT n (s.reg n - s.reg m) t.t s t ∧
      (t.t = true ↔ (s.reg n).toInt - (s.reg m).toInt < -2 ^ 31 ∨ 2 ^ 31 ≤ (s.reg n).toInt - (s.reg m).toInt))

/-- The compares write T, and nothing else, with the condition their rules give. -/
def Obligations.Compares : Prop :=
  ∀ (s : State) (m n : RegNum) (imm : BitVec 8),
    Means (nibblesByte 8 8 imm) (.cmpEqImm imm) s (WroteT (decide (s.reg 0 = imm.signExtend 32)) s) ∧
    Means (nibbles 3 n m 0) (.cmpEq m n) s (WroteT (decide (s.reg n = s.reg m)) s) ∧
    Means (nibbles 3 n m 2) (.cmpHs m n) s (WroteT (decide ((s.reg m).toNat ≤ (s.reg n).toNat)) s) ∧
    Means (nibbles 3 n m 3) (.cmpGe m n) s (WroteT (decide ((s.reg m).toInt ≤ (s.reg n).toInt)) s) ∧
    Means (nibbles 3 n m 6) (.cmpHi m n) s (WroteT (decide ((s.reg m).toNat < (s.reg n).toNat)) s) ∧
    Means (nibbles 3 n m 7) (.cmpGt m n) s (WroteT (decide ((s.reg m).toInt < (s.reg n).toInt)) s) ∧
    Means (nibbles 4 n 1 5) (.cmpPl n) s (WroteT (decide (0 < (s.reg n).toInt)) s) ∧
    Means (nibbles 4 n 1 1) (.cmpPz n) s (WroteT (decide (0 ≤ (s.reg n).toInt)) s) ∧
    Means (nibbles 2 n m 0xC) (.cmpStr m n) s (fun t => WroteT t.t s t ∧
      (t.t = true ↔ ∃ j, j < 4 ∧ (s.reg n ^^^ s.reg m).extractLsb' (8 * j) 8 = 0))

/-- DIV0U, DIV0S and DIV1 as bit arithmetic on Rn, Q, M and T; in DIV1 with m = n the divisor is the shifted Rn,
which R168 derives from the order of its statements. -/
def Obligations.DivisionSteps : Prop :=
  ∀ (s : State) (m n : RegNum),
    Means 0x0019 .div0u s (fun t => t.m = false ∧ t.q = false ∧ t.t = false ∧
      Frame [] [] [] srTQM s t ∧ MemKept s t ∧ Completed false s t) ∧
    Means (nibbles 2 n m 7) (.div0s m n) s (fun t => t.q = (s.reg n).getLsbD 31 ∧ t.m = (s.reg m).getLsbD 31 ∧
      t.t = (t.m ^^ t.q) ∧ Frame [] [] [] srTQM s t ∧ MemKept s t ∧ Completed false s t) ∧
    ∀ x d : Word, x = (s.reg n <<< 1 ||| if s.t then 1 else 0) → d = (if m = n then x else s.reg m) →
      Means (nibbles 3 n m 4) (.div1 m n) s (fun t =>
        (s.q = s.m → t.reg n = x - d ∧ t.q = (((s.reg n).getLsbD 31 ^^ decide (x.toNat < d.toNat)) ^^ s.m)) ∧
        (s.q ≠ s.m →
          t.reg n = x + d ∧ t.q = (((s.reg n).getLsbD 31 ^^ decide (2 ^ 32 ≤ x.toNat + d.toNat)) ^^ s.m)) ∧
        t.m = s.m ∧ t.t = (t.q == t.m) ∧ Frame [n] [] [] srTQM s t ∧ MemKept s t ∧ Completed false s t)

/-- One DIV1 of an unsigned division is one step of non-restoring division: with M = 0 and the remainder `r`, which Rn
holds with Q as its sign, between -d and d, the new remainder is twice the old with T shifted in, less the divisor
where `r` was not negative and plus it where it was; it lies between -d and d again, and T is the quotient bit. -/
def Obligations.UnsignedDivisionStep : Prop :=
  ∀ (s t : State) (m n : RegNum) (d r r' : Int), m ≠ n → s.m = false →
    d = (s.reg m).toNat → r = (s.reg n).toNat - 2 ^ 32 * s.q.toNat → -d ≤ r → r < d →
    exec (.div1 m n) s = .next t → r' = (t.reg n).toNat - 2 ^ 32 * t.q.toNat →
    r' = 2 * r + s.t.toNat + (if 0 ≤ r then -d else d) ∧ -d ≤ r' ∧ r' < d ∧ (t.t = true ↔ 0 ≤ r')

/-- The multiplies write the exact product, or its low 32 bits, to MACH and MACL as their rules say. -/
def Obligations.Multiplies : Prop :=
  ∀ (s : State) (m n : RegNum),
    Means (nibbles 3 n m 0xD) (.dmulsL m n) s (fun t => WroteMac (t.mach ++ t.macl) s t ∧
      (t.mach ++ t.macl).toInt = (s.reg n).toInt * (s.reg m).toInt) ∧
    Means (nibbles 3 n m 5) (.dmuluL m n) s (fun t => WroteMac (t.mach ++ t.macl) s t ∧
      (t.mach ++ t.macl).toNat = (s.reg n).toNat * (s.reg m).toNat) ∧
    Means (nibbles 0 n m 7) (.mulL m n) s (fun t => WroteSpecial .macl t.macl false s t ∧
      t.macl.toNat = (s.reg n).toNat * (s.reg m).toNat % 2 ^ 32) ∧
    Means (nibbles 2 n m 0xF) (.mulsW m n) s (fun t => WroteSpecial .macl t.macl false s t ∧
      t.macl.toInt = ((s.reg n).extractLsb' 0 16).toInt * ((s.reg m).extractLsb' 0 16).toInt) ∧
    Means (nibbles 2 n m 0xE) (.muluW m n) s (fun t => WroteSpecial .macl t.macl false s t ∧
      t.macl.toNat = ((s.reg n).extractLsb' 0 16).toNat * ((s.reg m).extractLsb' 0 16).toNat)

/-- MAC.L: the two reads through the advancing pointers, then with S = 0 the 64-bit sum and with S = 1 the sum of the
48-bit accumulator held between -2^47 and 2^47 - 1.  The S = 1 case is the spec's decision D17 (assumption 27). -/
def Obligations.MultiplyAccumulateLong : Prop :=
  ∀ (s : State) (m n : RegNum) (q a b : Word) (sum : Int),
    q = (if m = n then s.reg n + 4 else s.reg m) → s.Readable 4 (s.reg n) → s.Readable 4 q →
    a = s.longAt 1 (s.reg n) → b = s.longAt 2 q →
    sum = ((s.mach ++ s.macl).extractLsb' 0 48).toInt + a.toInt * b.toInt →
    Means (nibbles 0 n m 0xF) (.macL m n) s (fun t =>
      (s.sBit = false → t.mach ++ t.macl = (s.mach ++ s.macl) + BitVec.ofInt 64 (a.toInt * b.toInt)) ∧
      (s.sBit = true →
        (sum < -2 ^ 47 → (t.mach ++ t.macl).toInt = -2 ^ 47) ∧
        (2 ^ 47 - 1 < sum → (t.mach ++ t.macl).toInt = 2 ^ 47 - 1) ∧
        (-2 ^ 47 ≤ sum → sum ≤ 2 ^ 47 - 1 → (t.mach ++ t.macl).toInt = sum)) ∧
      t.reg n = (if m = n then s.reg n + 8 else s.reg n + 4) ∧ (m ≠ n → t.reg m = s.reg m + 4) ∧
      Frame [n, m] [] [.mach, .macl] 0 s t ∧ MemKept s t ∧ Completed false s t)

/-- MAC.W: as MAC.L on words, with S = 0 into the 64 bits and with S = 1 into MACL alone, held between -2^31 and
2^31 - 1; on overflow bit 0 of MACH is set where the parameter says so (D18, assumption 22). -/
def Obligations.MultiplyAccumulateWord : Prop :=
  ∀ (s : State) (m n : RegNum) (q : Word) (a b : Half) (sum : Int),
    q = (if m = n then s.reg n + 2 else s.reg m) → s.Readable 2 (s.reg n) → s.Readable 2 q →
    a = s.halfAt 1 (s.reg n) → b = s.halfAt 2 q →
    sum = s.macl.toInt + a.toInt * b.toInt →
    Means (nibbles 4 n m 0xF) (.macW m n) s (fun t =>
      (s.sBit = false → t.mach ++ t.macl = (s.mach ++ s.macl) + BitVec.ofInt 64 (a.toInt * b.toInt)) ∧
      (s.sBit = true →
        (sum < -2 ^ 31 → t.macl = 0x80000000) ∧ (2 ^ 31 - 1 < sum → t.macl = 0x7FFFFFFF) ∧
        (-2 ^ 31 ≤ sum → sum ≤ 2 ^ 31 - 1 → t.macl.toInt = sum ∧ t.mach = s.mach) ∧
        (sum < -2 ^ 31 ∨ 2 ^ 31 - 1 < sum →
          t.mach = if s.params.macwOvfSetsMachLsb then s.mach ||| 1 else s.mach)) ∧
      t.reg n = (if m = n then s.reg n + 4 else s.reg n + 2) ∧ (m ≠ n → t.reg m = s.reg m + 2) ∧
      Frame [n, m] [] [.mach, .macl] 0 s t ∧ MemKept s t ∧ Completed false s t)

/-! ### Logic and shifts (42_logic, 43_shift) -/

/-- The logic instructions on registers and immediates, with the immediate zero-extended, and DT. -/
def Obligations.LogicOnRegisters : Prop :=
  ∀ (s : State) (m n : RegNum) (imm : BitVec 8),
    Means (nibbles 2 n m 9) (.andReg m n) s (WroteReg n (s.reg n &&& s.reg m) s) ∧
    Means (nibblesByte 0xC 9 imm) (.andImm imm) s (WroteReg 0 (s.reg 0 &&& imm.setWidth 32) s) ∧
    Means (nibbles 6 n m 7) (.not m n) s (WroteReg n (s.reg m ^^^ 0xFFFFFFFF) s) ∧
    Means (nibbles 2 n m 0xB) (.orReg m n) s (WroteReg n (s.reg n ||| s.reg m) s) ∧
    Means (nibblesByte 0xC 0xB imm) (.orImm imm) s (WroteReg 0 (s.reg 0 ||| imm.setWidth 32) s) ∧
    Means (nibbles 2 n m 0xA) (.xorReg m n) s (WroteReg n (s.reg n ^^^ s.reg m) s) ∧
    Means (nibblesByte 0xC 0xA imm) (.xorImm imm) s (WroteReg 0 (s.reg 0 ^^^ imm.setWidth 32) s) ∧
    Means (nibbles 2 n m 8) (.tstReg m n) s (WroteT (decide (s.reg n &&& s.reg m = 0)) s) ∧
    Means (nibblesByte 0xC 8 imm) (.tstImm imm) s (WroteT (decide (s.reg 0 &&& imm.setWidth 32 = 0)) s) ∧
    Means (nibbles 4 n 1 0) (.dt n) s (WroteRegT n (s.reg n - 1) (decide (s.reg n = 1)) s)

/-- The logic instructions on the byte at GBR + R0, and TAS.B (without its bus lock, which no other agent of the model
could observe). -/
def Obligations.LogicOnMemory : Prop :=
  ∀ (s : State) (imm : BitVec 8) (n : RegNum) (a : Word), s.mem.wf = true → a = s.gbr + s.reg 0 →
    (decode (nibblesByte 0xC 0xD imm) = .ok (.andB imm) ∧ decode (nibblesByte 0xC 0xF imm) = .ok (.orB imm) ∧
      decode (nibblesByte 0xC 0xE imm) = .ok (.xorB imm) ∧ decode (nibblesByte 0xC 0xC imm) = .ok (.tstB imm) ∧
      decode (nibbles 4 n 1 0xB) = .ok (.tasB n)) ∧
    (s.Writable 1 a →
      Completes (.andB imm) s (fun t => Stored 1 s.eaGbrIndexed [] false s t ∧
        (s.InRam 1 a → ∀ k, t.byteAt k a = s.byteAt 1 a &&& imm)) ∧
      Completes (.orB imm) s (fun t => Stored 1 s.eaGbrIndexed [] false s t ∧
        (s.InRam 1 a → ∀ k, t.byteAt k a = s.byteAt 1 a ||| imm)) ∧
      Completes (.xorB imm) s (fun t => Stored 1 s.eaGbrIndexed [] false s t ∧
        (s.InRam 1 a → ∀ k, t.byteAt k a = s.byteAt 1 a ^^^ imm))) ∧
    (s.Readable 1 a → Completes (.tstB imm) s (WroteT (decide (s.byteAt 1 a &&& imm = 0)) s)) ∧
    (s.Writable 1 (s.reg n) → Completes (.tasB n) s (fun t =>
      t.t = decide (s.byteAt 1 (s.reg n) = 0) ∧ Frame [] [] [] srT s t ∧
      MemKeptOutside (s.reg n) 1 s t ∧ Completed false s t ∧
      (s.InRam 1 (s.reg n) → ∀ k, t.byteAt k (s.reg n) = s.byteAt 1 (s.reg n) ||| 0x80)))

/-- The one-bit rotates and shifts, bit by bit: T takes the bit shifted out. -/
def Obligations.OneBitShifts : Prop :=
  ∀ (s : State) (n : RegNum),
    Means (nibbles 4 n 0 4) (.rotl n) s (fun t => WroteRegT n (t.reg n) ((s.reg n).getLsbD 31) s t ∧
      ∀ j, j < 32 → (t.reg n).getLsbD j = if j = 0 then (s.reg n).getLsbD 31 else (s.reg n).getLsbD (j - 1)) ∧
    Means (nibbles 4 n 0 5) (.rotr n) s (fun t => WroteRegT n (t.reg n) ((s.reg n).getLsbD 0) s t ∧
      ∀ j, j < 32 → (t.reg n).getLsbD j = if j = 31 then (s.reg n).getLsbD 0 else (s.reg n).getLsbD (j + 1)) ∧
    Means (nibbles 4 n 2 4) (.rotcl n) s (fun t => WroteRegT n (t.reg n) ((s.reg n).getLsbD 31) s t ∧
      ∀ j, j < 32 → (t.reg n).getLsbD j = if j = 0 then s.t else (s.reg n).getLsbD (j - 1)) ∧
    Means (nibbles 4 n 2 5) (.rotcr n) s (fun t => WroteRegT n (t.reg n) ((s.reg n).getLsbD 0) s t ∧
      ∀ j, j < 32 → (t.reg n).getLsbD j = if j = 31 then s.t else (s.reg n).getLsbD (j + 1)) ∧
    Means (nibbles 4 n 2 0) (.shal n) s (fun t => WroteRegT n (t.reg n) ((s.reg n).getLsbD 31) s t ∧
      ∀ j, j < 32 → (t.reg n).getLsbD j = if j = 0 then false else (s.reg n).getLsbD (j - 1)) ∧
    Means (nibbles 4 n 2 1) (.shar n) s (fun t => WroteRegT n (t.reg n) ((s.reg n).getLsbD 0) s t ∧
      ∀ j, j < 32 → (t.reg n).getLsbD j = if j = 31 then (s.reg n).getLsbD 31 else (s.reg n).getLsbD (j + 1)) ∧
    Means (nibbles 4 n 0 0) (.shll n) s (fun t => WroteRegT n (t.reg n) ((s.reg n).getLsbD 31) s t ∧
      ∀ j, j < 32 → (t.reg n).getLsbD j = if j = 0 then false else (s.reg n).getLsbD (j - 1)) ∧
    Means (nibbles 4 n 0 1) (.shlr n) s (fun t => WroteRegT n (t.reg n) ((s.reg n).getLsbD 0) s t ∧
      ∀ j, j < 32 → (t.reg n).getLsbD j = if j = 31 then false else (s.reg n).getLsbD (j + 1))

/-- The shifts by 2, 8 and 16: zeros enter, T stays. -/
def Obligations.MultiBitShifts : Prop :=
  ∀ (s : State) (n : RegNum),
    Means (nibbles 4 n 0 8) (.shll2 n) s (WroteReg n (BitVec.ofNat 32 ((s.reg n).toNat * 2 ^ 2)) s) ∧
    Means (nibbles 4 n 0 9) (.shlr2 n) s (WroteReg n (BitVec.ofNat 32 ((s.reg n).toNat / 2 ^ 2)) s) ∧
    Means (nibbles 4 n 1 8) (.shll8 n) s (WroteReg n (BitVec.ofNat 32 ((s.reg n).toNat * 2 ^ 8)) s) ∧
    Means (nibbles 4 n 1 9) (.shlr8 n) s (WroteReg n (BitVec.ofNat 32 ((s.reg n).toNat / 2 ^ 8)) s) ∧
    Means (nibbles 4 n 2 8) (.shll16 n) s (WroteReg n (BitVec.ofNat 32 ((s.reg n).toNat * 2 ^ 16)) s) ∧
    Means (nibbles 4 n 2 9) (.shlr16 n) s (WroteReg n (BitVec.ofNat 32 ((s.reg n).toNat / 2 ^ 16)) s)

/-! ### Branches (44_branch) -/

/-- The eleven branches: targets from `pc + 4`, PR, T sampled by the branch itself; in a delay slot each is an illegal
instruction.  That a not-taken BF/S or BT/S leaves a slot under UNTAKEN_SLOT_IS_SLOT is the spec's decision D19
(assumption 23). -/
def Obligations.BranchInstructions : Prop :=
  ∀ (s : State) (d : BitVec 8) (e : BitVec 12) (m : RegNum),
    Branches (nibblesByte 8 0xB d) (.bf d) s (fun t =>
      Branched (if s.t then s.pc + 2 else s.pc + 4 + d.signExtend 32 * 2) .none [] s t) ∧
    Branches (nibblesByte 8 0xF d) (.bfS d) s (fun t =>
      Branched (s.pc + 2)
        (if s.t then (if s.params.untakenSlotIsSlot then .untaken else .none)
          else .pending (s.pc + 4 + d.signExtend 32 * 2)) [] s t) ∧
    Branches (nibblesByte 8 9 d) (.bt d) s (fun t =>
      Branched (if s.t then s.pc + 4 + d.signExtend 32 * 2 else s.pc + 2) .none [] s t) ∧
    Branches (nibblesByte 8 0xD d) (.btS d) s (fun t =>
      Branched (s.pc + 2)
        (if s.t then .pending (s.pc + 4 + d.signExtend 32 * 2)
          else (if s.params.untakenSlotIsSlot then .untaken else .none)) [] s t) ∧
    Branches (nibbleDisp12 0xA e) (.bra e) s (fun t =>
      Branched (s.pc + 2) (.pending (s.pc + 4 + e.signExtend 32 * 2)) [] s t) ∧
    Branches (nibbles 0 m 2 3) (.braf m) s (fun t =>
      Branched (s.pc + 2) (.pending (s.pc + 4 + s.reg m)) [] s t) ∧
    Branches (nibbleDisp12 0xB e) (.bsr e) s (fun t =>
      Branched (s.pc + 2) (.pending (s.pc + 4 + e.signExtend 32 * 2)) [.pr] s t ∧ t.pr = s.pc + 4) ∧
    Branches (nibbles 0 m 0 3) (.bsrf m) s (fun t =>
      Branched (s.pc + 2) (.pending (s.pc + 4 + s.reg m)) [.pr] s t ∧ t.pr = s.pc + 4) ∧
    Branches (nibbles 4 m 2 0xB) (.jmp m) s (fun t =>
      Branched (s.pc + 2) (.pending (s.reg m)) [] s t) ∧
    Branches (nibbles 4 m 0 0xB) (.jsr m) s (fun t =>
      Branched (s.pc + 2) (.pending (s.reg m)) [.pr] s t ∧ t.pr = s.pc + 4) ∧
    Branches 0x000B .rts s (fun t => Branched (s.pc + 2) (.pending s.pr) [] s t)

/-! ### System control (45_system_control) -/

/-- LDC, LDS, STC and STS between registers: interrupt-disabled, every other register and all of memory unchanged; a
load of SR keeps the bits of SR_MASK.  The bounds of SR_MASK are those of R21 (D2); that a parameter outside them is
brought inside is the model's choice (assumption 3). -/
def Obligations.ControlRegisterMoves : Prop :=
  ∀ (s : State) (m : RegNum),
    Means (nibbles 4 m 0 0xE) (.ldcSr m) s (fun t => t.sr = s.reg m &&& srWriteMask s.params ∧
      Frame [] [] [] 0xFFFFFFFF s t ∧ MemKept s t ∧ Completed true s t) ∧
    srWriteMask s.params &&& 0xF000F000 = 0 ∧ srWriteMask s.params &&& 0x000003F3 = 0x000003F3 ∧
    (s.params.srMask &&& 0xF000F000 = 0 → s.params.srMask &&& 0x000003F3 = 0x000003F3 →
      srWriteMask s.params = s.params.srMask) ∧
    Means (nibbles 4 m 1 0xE) (.ldcGbr m) s (WroteSpecial .gbr (s.reg m) true s) ∧
    Means (nibbles 4 m 2 0xE) (.ldcVbr m) s (WroteSpecial .vbr (s.reg m) true s) ∧
    Means (nibbles 4 m 0 0xA) (.ldsMach m) s (WroteSpecial .mach (s.reg m) true s) ∧
    Means (nibbles 4 m 1 0xA) (.ldsMacl m) s (WroteSpecial .macl (s.reg m) true s) ∧
    Means (nibbles 4 m 2 0xA) (.ldsPr m) s (WroteSpecial .pr (s.reg m) true s) ∧
    Means (nibbles 0 m 0 2) (.stcSr m) s (fun t => t.reg m = s.sr ∧ Frame [m] [] [] 0 s t ∧ MemKept s t ∧
      Completed true s t) ∧
    Means (nibbles 0 m 1 2) (.stcGbr m) s (fun t => t.reg m = s.gbr ∧ Frame [m] [] [] 0 s t ∧ MemKept s t ∧
      Completed true s t) ∧
    Means (nibbles 0 m 2 2) (.stcVbr m) s (fun t => t.reg m = s.vbr ∧ Frame [m] [] [] 0 s t ∧ MemKept s t ∧
      Completed true s t) ∧
    Means (nibbles 0 m 0 0xA) (.stsMach m) s (fun t => t.reg m = s.mach ∧ Frame [m] [] [] 0 s t ∧ MemKept s t ∧
      Completed true s t) ∧
    Means (nibbles 0 m 1 0xA) (.stsMacl m) s (fun t => t.reg m = s.macl ∧ Frame [m] [] [] 0 s t ∧ MemKept s t ∧
      Completed true s t) ∧
    Means (nibbles 0 m 2 0xA) (.stsPr m) s (fun t => t.reg m = s.pr ∧ Frame [m] [] [] 0 s t ∧ MemKept s t ∧
      Completed true s t)

/-- LDC.L and LDS.L from `@Rm+`: interrupt-disabled, the register takes the longword and Rm advances by 4. -/
def Obligations.ControlRegisterLoads : Prop :=
  ∀ (s : State) (m : RegNum) (v : Word), v = s.longAt 1 (s.reg m) →
    Accesses (nibbles 4 m 0 7) (.ldcLSr m) .read 4 (s.reg m) s (fun t => t.sr = v &&& srWriteMask s.params ∧
      t.reg m = s.reg m + 4 ∧ Frame [m] [] [] 0xFFFFFFFF s t ∧ MemKept s t ∧ Completed true s t) ∧
    Accesses (nibbles 4 m 1 7) (.ldcLGbr m) .read 4 (s.reg m) s (fun t => t.gbr = v ∧
      t.reg m = s.reg m + 4 ∧ Frame [m] [] [.gbr] 0 s t ∧ MemKept s t ∧ Completed true s t) ∧
    Accesses (nibbles 4 m 2 7) (.ldcLVbr m) .read 4 (s.reg m) s (fun t => t.vbr = v ∧
      t.reg m = s.reg m + 4 ∧ Frame [m] [] [.vbr] 0 s t ∧ MemKept s t ∧ Completed true s t) ∧
    Accesses (nibbles 4 m 0 6) (.ldsLMach m) .read 4 (s.reg m) s (fun t => t.mach = v ∧
      t.reg m = s.reg m + 4 ∧ Frame [m] [] [.mach] 0 s t ∧ MemKept s t ∧ Completed true s t) ∧
    Accesses (nibbles 4 m 1 6) (.ldsLMacl m) .read 4 (s.reg m) s (fun t => t.macl = v ∧
      t.reg m = s.reg m + 4 ∧ Frame [m] [] [.macl] 0 s t ∧ MemKept s t ∧ Completed true s t) ∧
    Accesses (nibbles 4 m 2 6) (.ldsLPr m) .read 4 (s.reg m) s (fun t => t.pr = v ∧
      t.reg m = s.reg m + 4 ∧ Frame [m] [] [.pr] 0 s t ∧ MemKept s t ∧ Completed true s t)

/-- STC.L and STS.L to `@-Rn`: interrupt-disabled, the register is stored at Rn - 4, where Rn ends. -/
def Obligations.ControlRegisterStores : Prop :=
  ∀ (s : State) (n : RegNum) (a : Word), s.mem.wf = true → a = s.eaPreDec n 4 →
    a = s.reg n - 4 ∧
    Accesses (nibbles 4 n 0 3) (.stcLSr n) .write 4 a s (fun t => Stored 4 a [n] true s t ∧ t.reg n = a ∧
      (s.InRam 4 a → ∀ k, t.longAt k a = s.sr)) ∧
    Accesses (nibbles 4 n 1 3) (.stcLGbr n) .write 4 a s (fun t => Stored 4 a [n] true s t ∧ t.reg n = a ∧
      (s.InRam 4 a → ∀ k, t.longAt k a = s.gbr)) ∧
    Accesses (nibbles 4 n 2 3) (.stcLVbr n) .write 4 a s (fun t => Stored 4 a [n] true s t ∧ t.reg n = a ∧
      (s.InRam 4 a → ∀ k, t.longAt k a = s.vbr)) ∧
    Accesses (nibbles 4 n 0 2) (.stsLMach n) .write 4 a s (fun t => Stored 4 a [n] true s t ∧ t.reg n = a ∧
      (s.InRam 4 a → ∀ k, t.longAt k a = s.mach)) ∧
    Accesses (nibbles 4 n 1 2) (.stsLMacl n) .write 4 a s (fun t => Stored 4 a [n] true s t ∧ t.reg n = a ∧
      (s.InRam 4 a → ∀ k, t.longAt k a = s.macl)) ∧
    Accesses (nibbles 4 n 2 2) (.stsLPr n) .write 4 a s (fun t => Stored 4 a [n] true s t ∧ t.reg n = a ∧
      (s.InRam 4 a → ∀ k, t.longAt k a = s.pr))

/-- NOP changes nothing but PC; CLRT and SETT write T; CLRMAC clears MACH and MACL. -/
def Obligations.NopAndFlagInstructions : Prop :=
  ∀ s : State,
    Means 0x0009 .nop s (fun t => Frame [] [] [] 0 s t ∧ MemKept s t ∧ Completed false s t) ∧
    Means 0x0008 .clrt s (WroteT false s) ∧
    Means 0x0018 .sett s (WroteT true s) ∧
    Means 0x0028 .clrmac s (fun t => t.mach = 0 ∧ t.macl = 0 ∧ Frame [] [] [.mach, .macl] 0 s t ∧ MemKept s t ∧
      Completed false s t)

/-- TRAPA takes the exception of its vector with the address of the next instruction stacked and SR unchanged. -/
def Obligations.TrapEntry : Prop :=
  ∀ (s : State) (imm : BitVec 8), s.mem.wf = true → s.slot = .none → s.EntryReady imm →
    Means (nibblesByte 0xC 3 imm) (.trapa imm) s (TookException imm (s.pc + 2) s.sr s)

/-- RTE pops PC and SR, raises R15 by 8 and branches delayed; in a delay slot it is an illegal instruction, and with
R15 misaligned it faults the run, whatever stacked PC for address errors is given (the spec's decision D13,
assumption 10). -/
def Obligations.ReturnFromException : Prop :=
  ∀ s : State,
    (s.Readable 4 (s.reg spNum) → s.Readable 4 (s.reg spNum + 4) →
      Branches 0x002B .rte s (fun t =>
        t.pc = s.pc + 2 ∧ t.slot = .pending (s.longAt 1 (s.reg spNum)) ∧
        t.sr = s.longAt 2 (s.reg spNum + 4) &&& srWriteMask s.params ∧ t.reg spNum = s.reg spNum + 8 ∧
        Frame [spNum] [] [] 0xFFFFFFFF s t ∧ MemKept s t ∧ t.inhibit = false ∧ t.proc = s.proc)) ∧
    (s.slot = .none → (s.reg spNum).toNat % 4 ≠ 0 →
      exec .rte s = .fault (.addressError (s.reg spNum) .read))

/-- An exception or interrupt entry whose handler begins with RTE gives back every register, SR whole, and, as the
pending branch, the stacked PC; it leaves nothing changed but the eight bytes below the old R15.  That every event has
the stack frame of TRAPA is the spec's decision D4 (assumption 5). -/
def Obligations.EntryThenReturnRestores : Prop :=
  ∀ (s t : State) (vector : BitVec 8) (stackedPc : Word) (level : Option (BitVec 4)), s.Inv →
    s.EntryReady vector → s.InRam 4 (s.reg spNum - 4) → s.InRam 4 (s.reg spNum - 8) →
    enterException vector stackedPc level s = .next t →
    ∃ u, exec .rte t = .next u ∧ u.slot = .pending stackedPc ∧ u.sr = s.sr ∧
      (∀ r, u.reg r = s.reg r) ∧ (∀ r, u.freg r = s.freg r) ∧ (∀ r, u.special r = s.special r) ∧
      MemKeptOutside (s.reg spNum - 8) 8 s u

/-! ### Floating point (46_floating_point) -/

/-- FLDI0, FLDI1, FLDS, FSTS and the seven FMOV forms copy 32 bits as they are and leave FPSCR.  That FLDS does is the
spec's decision D21, its operation code being missing (assumption 25). -/
def Obligations.FloatMoves : Prop :=
  ∀ (s : State) (m n : BitVec 4), s.fpuStopped = false → s.mem.wf = true →
    Means (nibbles 0xF n 8 0xD) (.fldi0 n) s (WroteFreg n 0x00000000 s) ∧
    Means (nibbles 0xF n 9 0xD) (.fldi1 n) s (WroteFreg n 0x3F800000 s) ∧
    Means (nibbles 0xF m 1 0xD) (.flds m) s (WroteSpecial .fpul (s.freg m) false s) ∧
    Means (nibbles 0xF n 0 0xD) (.fsts n) s (WroteFreg n s.fpul s) ∧
    Means (nibbles 0xF n m 0xC) (.fmov m n) s (WroteFreg n (s.freg m) s) ∧
    Accesses (nibbles 0xF n m 6) (.fmovLoadIdx m n) .read 4 (s.reg m + s.reg 0) s
      (WroteFreg n (s.longAt 1 (s.reg m + s.reg 0)) s) ∧
    Accesses (nibbles 0xF n m 9) (.fmovLoadInc m n) .read 4 (s.reg m) s (fun t =>
      t.freg n = s.longAt 1 (s.reg m) ∧ t.reg m = s.reg m + 4 ∧ Frame [m] [n] [] 0 s t ∧ MemKept s t ∧
      Completed false s t) ∧
    Accesses (nibbles 0xF n m 8) (.fmovLoad m n) .read 4 (s.reg m) s (WroteFreg n (s.longAt 1 (s.reg m)) s) ∧
    Accesses (nibbles 0xF n m 7) (.fmovStoreIdx m n) .write 4 (s.eaIndexed n) s (fun t =>
      Stored 4 (s.reg n + s.reg 0) [] false s t ∧
      (s.InRam 4 (s.eaIndexed n) → ∀ k, t.longAt k (s.eaIndexed n) = s.freg m)) ∧
    Accesses (nibbles 0xF n m 0xB) (.fmovStoreDec m n) .write 4 (s.eaPreDec n 4) s (fun t =>
      Stored 4 (s.reg n - 4) [n] false s t ∧ t.reg n = s.reg n - 4 ∧
      (s.InRam 4 (s.eaPreDec n 4) → ∀ k, t.longAt k (s.eaPreDec n 4) = s.freg m)) ∧
    Accesses (nibbles 0xF n m 0xA) (.fmovStore m n) .write 4 (s.reg n) s (fun t =>
      Stored 4 (s.reg n) [] false s t ∧ (s.InRam 4 (s.reg n) → ∀ k, t.longAt k (s.reg n) = s.freg m))

/-- The seven arithmetic instructions: CV and CZ show the outcome, FV and FZ accumulate, and FRn takes the value, the
quiet NaN of a disabled invalid operation, or the infinity of a disabled division by zero; that FMAC clears CV and CZ
is the spec's decision D21 (assumption 25).  Then what FABS, FNEG and FMAC compute (`FloatSpecialCases` says it of the
other four): FNEG of a denormalized number is the spec's decision D20 (assumption 26), an exact zero sum is +0
(assumption 29), FMAC_FUSED is a parameter (assumption 21), and that without it FADD alone gives the sign of an
underflowed product plus a zero is the model's choice (assumption 46). -/
def Obligations.FloatArithmetic : Prop :=
  (∀ (s : State) (m n : FRegNum) (i : Instr) (code : Half) (r : FpResult), s.fpuStopped = false →
    (i = .fabs n ∧ code = nibbles 0xF n 5 0xD ∧ r = fpAbsolute (s.freg n) ∨
      i = .fadd m n ∧ code = nibbles 0xF n m 0 ∧ r = fpAdd (s.freg n) (s.freg m) ∨
      i = .fdiv m n ∧ code = nibbles 0xF n m 3 ∧ r = fpDiv (s.freg n) (s.freg m) ∨
      i = .fmac m n ∧ code = nibbles 0xF n m 0xE ∧ r = fpMac s.params.fmacFused (s.freg 0) (s.freg m) (s.freg n) ∨
      i = .fmul m n ∧ code = nibbles 0xF n m 2 ∧ r = fpMul (s.freg n) (s.freg m) ∨
      i = .fneg n ∧ code = nibbles 0xF n 4 0xD ∧ r = fpNegate (s.freg n) ∨
      i = .fsub m n ∧ code = nibbles 0xF n m 1 ∧ r = fpSub (s.freg n) (s.freg m)) →
    FpQuiet r s → Means code i s (WroteFp n (fpWritten r) (fpscrAfter r s) s)) ∧
  (∀ v : Word,
    (fpIsSNan v = true → fpAbsolute v = .invalid ∧ fpNegate v = .invalid) ∧
    (fpIsQNan v = true → fpAbsolute v = .value 0x7FBFFFFF ∧ fpNegate v = .value 0x7FBFFFFF) ∧
    (fpIsInf v = true → fpAbsolute v = .value 0x7F800000 ∧ fpNegate v = .value (fpInf (!fpSign v))) ∧
    (fpIsZero v = true → fpAbsolute v = .value 0 ∧ fpNegate v = .value (fpZero (!fpSign v))) ∧
    (FpNorm v → ∃ p q, fpAbsolute v = .value p ∧ fpNegate v = .value q ∧ FpNorm p ∧ FpNorm q ∧
      fpVal p = (fpVal v).natAbs ∧ fpVal q = -fpVal v)) ∧
  ∀ (fused : Bool) (a b c : Word) (sp : Bool), sp = (fpSign a ^^ fpSign b) →
    (fpIsSNan a = true ∨ fpIsSNan b = true ∨ fpIsSNan c = true → fpMac fused a b c = .invalid) ∧
    (fpIsSNan c = false → fpIsInf a = true ∧ fpIsZero b = true ∨ fpIsZero a = true ∧ fpIsInf b = true →
      fpMac fused a b c = .invalid) ∧
    (fpIsSNan a = false → fpIsSNan b = false → fpIsSNan c = false →
      ¬(fpIsInf a = true ∧ fpIsZero b = true ∨ fpIsZero a = true ∧ fpIsInf b = true) →
      fpIsQNan a = true ∨ fpIsQNan b = true ∨ fpIsQNan c = true → fpMac fused a b c = .value 0x7FBFFFFF) ∧
    (fpIsNan c = false →
      fpIsInf a = true ∧ (fpIsInf b = true ∨ FpNorm b) ∨ FpNorm a ∧ fpIsInf b = true →
      (fpIsInf c = true → fpSign c ≠ sp → fpMac fused a b c = .invalid) ∧
      (fpIsInf c = false ∨ fpSign c = sp → fpMac fused a b c = .value (fpInf sp))) ∧
    ((fpIsZero a = true ∨ FpNorm a) → (fpIsZero b = true ∨ FpNorm b) → fpIsInf c = true →
      fpMac fused a b c = .value (fpInf (fpSign c))) ∧
    (fpIsZero a = true ∧ (fpIsZero b = true ∨ FpNorm b) ∨ FpNorm a ∧ fpIsZero b = true →
      (fpIsZero c = true → fpMac fused a b c = .value (fpZero (fpSign c && sp))) ∧
      (FpNorm c → fpMac fused a b c = .value c)) ∧
    (FpNorm a → FpNorm b → fpIsZero c = true ∨ FpNorm c →
      TruncatesTo (fpMac true a b c) (fpVal a * fpVal b + fpVal c * 2 ^ 149) (2 ^ 149) ∧
      ∃ p, TruncatedTo sp (fpMag a * fpMag b) (2 ^ 149) p ∧ fpMac false a b c = fpAdd c p)

/-- FCMP/EQ and FCMP/GT: an invalid comparison (a signaling NaN; for FCMP/GT any NaN) sets CV and FV and clears T, or
with EV raises the FPU exception with T as it was; else T is the comparison of the values, zeros and denormalized
numbers being equal. -/
def Obligations.FloatCompare : Prop :=
  ∀ (s : State) (m n : FRegNum) (a b : Word), s.fpuStopped = false → a = s.freg n → b = s.freg m →
    (decode (nibbles 0xF n m 4) = .ok (.fcmpEq m n) ∧ decode (nibbles 0xF n m 5) = .ok (.fcmpGt m n)) ∧
    (fpIsSNan a = false → fpIsSNan b = false →
      Completes (.fcmpEq m n) s (fun t =>
        t.t = (!fpIsNan a && !fpIsNan b && decide (fpVal a = fpVal b)) ∧ t.fpscr = fpscrAfter (.value 0) s ∧
        Frame [] [] [.fpscr] srT s t ∧ MemKept s t ∧ Completed false s t)) ∧
    (fpIsNan a = false → fpIsNan b = false →
      Completes (.fcmpGt m n) s (fun t =>
        t.t = decide (fpVal b < fpVal a) ∧ t.fpscr = fpscrAfter (.value 0) s ∧
        Frame [] [] [.fpscr] srT s t ∧ MemKept s t ∧ Completed false s t)) ∧
    (∀ i, (i = .fcmpEq m n ∧ (fpIsSNan a = true ∨ fpIsSNan b = true) ∨
        i = .fcmpGt m n ∧ (fpIsNan a = true ∨ fpIsNan b = true)) →
      (s.ev = false → Completes i s (fun t =>
        t.t = false ∧ t.fpscr = fpscrAfter .invalid s ∧
        Frame [] [] [.fpscr] srT s t ∧ MemKept s t ∧ Completed false s t)) ∧
      (s.ev = true → exec i s = raiseFpu { s with fpscr := fpscrAfter .invalid s }))

/-- FTRC: the integer part of a value that fits a longword, toward zero; out of range above, below and NaN, an invalid
operation with H'7FFFFFFF, H'80000000 and H'80000000, or with EV the FPU exception with FPUL as it was. -/
def Obligations.FloatToInteger : Prop :=
  ∀ (s : State) (m : FRegNum) (v : Word), s.fpuStopped = false → v = s.freg m →
    decode (nibbles 0xF m 3 0xD) = .ok (.ftrc m) ∧
    (fpIsNan v = false → -2 ^ 31 * 2 ^ 149 ≤ fpVal v → fpVal v < 2 ^ 31 * 2 ^ 149 →
      Completes (.ftrc m) s (fun t =>
        t.fpul.toInt = (fpVal v).tdiv (2 ^ 149) ∧ t.fpscr = fpscrAfter (.value 0) s ∧
        Frame [] [] [.fpul, .fpscr] 0 s t ∧ MemKept s t ∧ Completed false s t)) ∧
    (∀ saturated : Word,
      (fpIsNan v = false ∧ 2 ^ 31 * 2 ^ 149 ≤ fpVal v ∧ saturated = 0x7FFFFFFF ∨
        fpIsNan v = false ∧ fpVal v < -2 ^ 31 * 2 ^ 149 ∧ saturated = 0x80000000 ∨
        fpIsNan v = true ∧ saturated = 0x80000000) →
      (s.ev = false → Completes (.ftrc m) s (fun t =>
        t.fpul = saturated ∧ t.fpscr = fpscrAfter .invalid s ∧
        Frame [] [] [.fpul, .fpscr] 0 s t ∧ MemKept s t ∧ Completed false s t)) ∧
      (s.ev = true → exec (.ftrc m) s = raiseFpu { s with fpscr := fpscrAfter .invalid s }))

/-- FLOAT: FPUL as a signed integer, exact where its magnitude is at most 2^24 and else the greatest float
whose magnitude does not exceed it; CV and CZ are cleared where the parameter says so (assumption 24); FTRC of an
exact result gives the integer back. -/
def Obligations.IntegerToFloat : Prop :=
  (∀ (s : State) (n : FRegNum), s.fpuStopped = false →
    Means (nibbles 0xF n 2 0xD) (.float n) s (fun t =>
      t.freg n = fpOfInt s.fpul ∧
      t.fpscr = (if s.params.floatClearsCause then s.fpscr &&& 0xFFFE7FFF else s.fpscr) ∧
      Frame [] [n] [.fpscr] 0 s t ∧ MemKept s t ∧ Completed false s t)) ∧
  ∀ v : Word,
    (v = 0 → fpOfInt v = 0) ∧
    (v ≠ 0 → fpIsInf (fpOfInt v) = false ∧ fpIsNan (fpOfInt v) = false ∧ fpIsZero (fpOfInt v) = false) ∧
    fpSign (fpOfInt v) = decide (v.toInt < 0) ∧ fpMag (fpOfInt v) ≤ v.toInt.natAbs * 2 ^ 149 ∧
    (∀ w : Word, 1 ≤ fpExponent w → fpExponent w ≤ 254 → fpMag w ≤ v.toInt.natAbs * 2 ^ 149 →
      fpMag w ≤ fpMag (fpOfInt v)) ∧
    (v.toInt.natAbs ≤ 2 ^ 24 → fpVal (fpOfInt v) = v.toInt * 2 ^ 149 ∧ fpToInt (fpOfInt v) = .value v)

/-- The LDS and STS forms of FPSCR and FPUL: FPSCR takes only its six writable bits.  That they are not
interrupt-disabled is the spec's decision D22 (assumption 31). -/
def Obligations.FpuSystemRegisterMoves : Prop :=
  ∀ (s : State) (m : RegNum) (v a : Word), s.fpuStopped = false → s.mem.wf = true →
    v = s.longAt 1 (s.reg m) → a = s.eaPreDec m 4 →
    a = s.reg m - 4 ∧
    Means (nibbles 4 m 6 0xA) (.ldsFpscr m) s
      (WroteSpecial .fpscr (s.reg m &&& 0x00018C60 ||| 0x00040001) false s) ∧
    Means (nibbles 4 m 5 0xA) (.ldsFpul m) s (WroteSpecial .fpul (s.reg m) false s) ∧
    Accesses (nibbles 4 m 6 6) (.ldsLFpscr m) .read 4 (s.reg m) s (fun t =>
      t.fpscr = (v &&& 0x00018C60 ||| 0x00040001) ∧ t.reg m = s.reg m + 4 ∧ Frame [m] [] [.fpscr] 0 s t ∧
      MemKept s t ∧ Completed false s t) ∧
    Accesses (nibbles 4 m 5 6) (.ldsLFpul m) .read 4 (s.reg m) s (fun t =>
      t.fpul = v ∧ t.reg m = s.reg m + 4 ∧ Frame [m] [] [.fpul] 0 s t ∧ MemKept s t ∧ Completed false s t) ∧
    Means (nibbles 0 m 6 0xA) (.stsFpscr m) s (WroteReg m s.fpscr s) ∧
    Means (nibbles 0 m 5 0xA) (.stsFpul m) s (WroteReg m s.fpul s) ∧
    Accesses (nibbles 4 m 6 2) (.stsLFpscr m) .write 4 a s (fun t => Stored 4 a [m] false s t ∧ t.reg m = a ∧
      (s.InRam 4 a → ∀ k, t.longAt k a = s.fpscr)) ∧
    Accesses (nibbles 4 m 5 2) (.stsLFpul m) .write 4 a s (fun t => Stored 4 a [m] false s t ∧ t.reg m = a ∧
      (s.InRam 4 a → ∀ k, t.longAt k a = s.fpul))

/-- An enabled invalid operation or division by zero of an arithmetic instruction, and an enabled invalid operation of
FCMP/EQ, FCMP/GT or FTRC, takes the FPU exception at vector 13, with FPSCR showing the outcome and the destination as it
was.  The stack frame and the unchanged SR are the spec's decision D4 (assumption 5), the stacked PC is a parameter (D4,
assumption 7), that the instruction itself takes the exception is D23 (assumption 30), and that FMAC clears CV and CZ
is D21 (assumption 25). -/
def Obligations.FpuExceptions : Prop :=
  ∀ (s s' : State) (m n : FRegNum) (i : Instr) (r : FpResult), s.fpuStopped = false → s.mem.wf = true →
    s.EntryReady 13 →
    (i = .fabs n ∧ r = fpAbsolute (s.freg n) ∨ i = .fadd m n ∧ r = fpAdd (s.freg n) (s.freg m) ∨
      i = .fdiv m n ∧ r = fpDiv (s.freg n) (s.freg m) ∨
      i = .fmac m n ∧ r = fpMac s.params.fmacFused (s.freg 0) (s.freg m) (s.freg n) ∨
      i = .fmul m n ∧ r = fpMul (s.freg n) (s.freg m) ∨ i = .fneg n ∧ r = fpNegate (s.freg n) ∨
      i = .fsub m n ∧ r = fpSub (s.freg n) (s.freg m) ∨
      i = .fcmpEq m n ∧ r = .invalid ∧ (fpIsSNan (s.freg n) = true ∨ fpIsSNan (s.freg m) = true) ∨
      i = .fcmpGt m n ∧ r = .invalid ∧ (fpIsNan (s.freg n) = true ∨ fpIsNan (s.freg m) = true) ∨
      i = .ftrc m ∧ r = .invalid ∧ (fpIsNan (s.freg m) = true ∨ 2 ^ 31 * 2 ^ 149 ≤ fpVal (s.freg m) ∨
        fpVal (s.freg m) < -2 ^ 31 * 2 ^ 149)) →
    FpTraps r s → s' = { s with fpscr := fpscrAfter r s } →
    ∃ t, exec i s = .next t ∧
      TookException 13 (s.stackedPc s.params.stackedPcFpu s.params.stackedPcFpuSlot) s.sr s' t

/-- Truncation to single precision: below the smallest normalized magnitude the zero of the sign; else a normalized
number of the sign, the greatest whose magnitude does not exceed the exact one. -/
def Obligations.FloatTruncation : Prop :=
  ∀ (sign : Bool) (num den : Nat), 0 < den → TruncatedTo sign num den (fpRz sign num den)

/-- FADD, FSUB, FMUL and FDIV for every pair of operand classes, as functions of `a` = FRn and `b` = FRm: each pair of
operands falls under one clause.  An exact zero sum is +0 (assumption 29). -/
def Obligations.FloatSpecialCases : Prop :=
  ∀ (a b : Word) (s : Bool), s = (fpSign a ^^ fpSign b) →
    (fpIsSNan a = true ∨ fpIsSNan b = true →
      fpAdd a b = .invalid ∧ fpSub a b = .invalid ∧ fpMul a b = .invalid ∧ fpDiv a b = .invalid) ∧
    (fpIsSNan a = false → fpIsSNan b = false → fpIsQNan a = true ∨ fpIsQNan b = true →
      fpAdd a b = .value 0x7FBFFFFF ∧ fpSub a b = .value 0x7FBFFFFF ∧ fpMul a b = .value 0x7FBFFFFF ∧
      fpDiv a b = .value 0x7FBFFFFF) ∧
    (fpIsInf a = true → fpIsInf b = true →
      fpDiv a b = .invalid ∧ fpMul a b = .value (fpInf s) ∧
      (fpSign a ≠ fpSign b → fpAdd a b = .invalid ∧ fpSub a b = .value a) ∧
      (fpSign a = fpSign b → fpAdd a b = .value a ∧ fpSub a b = .invalid)) ∧
    (fpIsInf a = true → FpNorm b →
      fpAdd a b = .value a ∧ fpSub a b = .value a ∧ fpMul a b = .value (fpInf s) ∧ fpDiv a b = .value (fpInf s)) ∧
    (FpNorm a → fpIsInf b = true →
      fpAdd a b = .value b ∧ fpSub a b = .value (fpInf (!fpSign b)) ∧ fpMul a b = .value (fpInf s) ∧
      fpDiv a b = .value (fpZero s)) ∧
    (fpIsInf a = true → fpIsZero b = true →
      fpAdd a b = .value a ∧ fpSub a b = .value a ∧ fpMul a b = .invalid ∧ fpDiv a b = .value (fpInf s)) ∧
    (fpIsZero a = true → fpIsInf b = true →
      fpAdd a b = .value b ∧ fpSub a b = .value (fpInf (!fpSign b)) ∧ fpMul a b = .invalid ∧
      fpDiv a b = .value (fpZero s)) ∧
    (fpIsZero a = true → fpIsZero b = true →
      fpAdd a b = .value (fpZero (fpSign a && fpSign b)) ∧ fpSub a b = .value (fpZero (fpSign a && !fpSign b)) ∧
      fpMul a b = .value (fpZero s) ∧ fpDiv a b = .invalid) ∧
    (fpIsZero a = true → FpNorm b →
      fpAdd a b = .value b ∧ fpSub a b = .value (b ^^^ 0x80000000) ∧ fpMul a b = .value (fpZero s) ∧
      fpDiv a b = .value (fpZero s)) ∧
    (FpNorm a → fpIsZero b = true →
      fpAdd a b = .value a ∧ fpSub a b = .value a ∧ fpMul a b = .value (fpZero s) ∧ fpDiv a b = .divByZero s) ∧
    (FpNorm a → FpNorm b →
      TruncatesTo (fpAdd a b) (fpVal a + fpVal b) 1 ∧ TruncatesTo (fpSub a b) (fpVal a - fpVal b) 1 ∧
      (∃ w, fpMul a b = .value w ∧ TruncatedTo s (fpMag a * fpMag b) (2 ^ 149) w) ∧
      ∃ w, fpDiv a b = .value w ∧ TruncatedTo s (fpMag a * 2 ^ 149) (fpMag b) w) ∧
    fpAdd a b = fpAdd b a ∧ fpMul a b = fpMul b a

end
end

