-- ==== Sys2Proof/Laws/Memory.lean ====
section
/-! SUPPORT. The laws of memory: a read after a write, the canonical form, and that equal canonical memories are those
that read alike. -/

namespace Sys2Proof.Machine

/-! ### Canonical form -/

theorem Memory.wfFrom_cons (low k : Nat) (b : Byte) (rest : Memory) :
    Memory.wfFrom low ((k, b) :: rest) = true ↔
      low ≤ k ∧ k < 2 ^ 32 ∧ b ≠ blankByte ∧ Memory.wfFrom (k + 1) rest = true := by
  simp [Memory.wfFrom, and_assoc]

theorem Memory.wfFrom_mono {low low' : Nat} {mem : Memory} (h : Memory.wfFrom low mem = true) (hl : low' ≤ low) :
    Memory.wfFrom low' mem = true := by
  cases mem with
  | nil => rfl
  | cons c rest =>
    obtain ⟨k, b⟩ := c
    rw [Memory.wfFrom_cons] at h ⊢
    exact ⟨le_trans hl h.1, h.2⟩

/-- A write keeps the canonical form. -/
theorem Memory.wfFrom_setByte {low a : Nat} {mem : Memory} (v : Byte) (h : Memory.wfFrom low mem = true)
    (hlow : low ≤ a) (ha : a < 2 ^ 32) : Memory.wfFrom low (mem.setByte a v) = true := by
  induction mem generalizing low with
  | nil =>
    by_cases hv : v = blankByte
    · simp [Memory.setByte, hv, Memory.wfFrom]
    · simp only [Memory.setByte, if_neg hv]
      rw [Memory.wfFrom_cons]
      exact ⟨hlow, ha, hv, rfl⟩
  | cons c rest ih =>
    obtain ⟨k, b⟩ := c
    have hc := h
    rw [Memory.wfFrom_cons] at hc
    obtain ⟨hk, hk2, hb, hr⟩ := hc
    simp only [Memory.setByte]
    split
    · split
      · exact h
      · rename_i hlt hv
        rw [Memory.wfFrom_cons]
        refine ⟨hlow, ha, hv, ?_⟩
        rw [Memory.wfFrom_cons]
        exact ⟨hlt, hk2, hb, hr⟩
    · split
      · rename_i hne heq
        subst heq
        split
        · exact Memory.wfFrom_mono hr (by omega)
        · rename_i hv
          rw [Memory.wfFrom_cons]
          exact ⟨hk, hk2, hv, hr⟩
      · rw [Memory.wfFrom_cons]
        exact ⟨hk, hk2, hb, ih hr (by omega)⟩

/-- A write at a machine address keeps the canonical form. -/
theorem Memory.wf_setByte {mem : Memory} (a : Word) (v : Byte) (h : mem.wf = true) :
    (mem.setByte a.toNat v).wf = true :=
  Memory.wfFrom_setByte v h (Nat.zero_le _) a.isLt

@[simp] theorem Memory.wf_nil : Memory.wf [] = true := rfl

/-! ### Reading -/

@[simp] theorem Memory.byteAt_nil (a : Nat) : Memory.byteAt [] a = blankByte := rfl

/-- Below the first address of a canonical list everything is blank. -/
theorem Memory.byteAt_below {low a : Nat} {mem : Memory} (h : Memory.wfFrom low mem = true) (ha : a < low) :
    mem.byteAt a = blankByte := by
  cases mem with
  | nil => rfl
  | cons c rest =>
    obtain ⟨k, b⟩ := c
    rw [Memory.wfFrom_cons] at h
    simp only [Memory.byteAt]
    rw [if_pos (by omega)]

/-- A read of the address just written gives the byte written. -/
theorem Memory.byteAt_setByte_self {low : Nat} {mem : Memory} (a : Nat) (v : Byte)
    (h : Memory.wfFrom low mem = true) : (mem.setByte a v).byteAt a = v := by
  induction mem generalizing low with
  | nil =>
    simp only [Memory.setByte]
    split
    · rename_i hv; simp [hv]
    · simp [Memory.byteAt]
  | cons c rest ih =>
    obtain ⟨k, b⟩ := c
    rw [Memory.wfFrom_cons] at h
    obtain ⟨_, _, _, hr⟩ := h
    simp only [Memory.setByte]
    split
    · rename_i hlt
      split
      · rename_i hv; simp [Memory.byteAt, hlt, hv]
      · simp [Memory.byteAt]
    · split
      · rename_i heq
        subst heq
        split
        · rename_i hv; rw [Memory.byteAt_below hr (Nat.lt_succ_self _), hv]
        · simp [Memory.byteAt]
      · rename_i hlt hne
        simp only [Memory.byteAt, if_neg hlt, if_neg hne]
        exact ih hr

/-- A read of any other address gives what it gave. -/
theorem Memory.byteAt_setByte_other {low : Nat} {mem : Memory} (a c : Nat) (v : Byte)
    (h : Memory.wfFrom low mem = true) (hac : c ≠ a) : (mem.setByte a v).byteAt c = mem.byteAt c := by
  induction mem generalizing low with
  | nil =>
    simp only [Memory.setByte]
    split
    · rfl
    · simp [Memory.byteAt, hac]
  | cons x rest ih =>
    obtain ⟨k, b⟩ := x
    rw [Memory.wfFrom_cons] at h
    obtain ⟨_, _, _, hr⟩ := h
    simp only [Memory.setByte]
    split
    · rename_i hlt
      split
      · rfl
      · simp only [Memory.byteAt, if_neg hac]
        by_cases h1 : c < a
        · rw [if_pos h1, if_pos (by omega)]
        · rw [if_neg h1]
    · split
      · rename_i hlt heq
        subst heq
        split
        · simp only [Memory.byteAt, if_neg hac]
          by_cases h1 : c < a
          · rw [if_pos h1, Memory.byteAt_below hr (by omega)]
          · rw [if_neg h1]
        · simp only [Memory.byteAt, if_neg hac]
      · simp only [Memory.byteAt]
        rw [ih hr]

/-- What a read gives after a write, in canonical memory. -/
theorem Memory.byteAt_setByte {mem : Memory} (a c : Nat) (v : Byte) (h : mem.wf = true) :
    (mem.setByte a v).byteAt c = if c = a then v else mem.byteAt c := by
  split
  · rename_i hc; subst hc; exact Memory.byteAt_setByte_self c v h
  · rename_i hc; exact Memory.byteAt_setByte_other a c v h hc

/-! ### The addresses stored to -/

theorem mem_insertAddr (addrs : List Nat) (a b : Nat) : b ∈ insertAddr addrs a ↔ b = a ∨ b ∈ addrs := by
  induction addrs with
  | nil => simp [insertAddr]
  | cons k rest ih =>
    simp only [insertAddr]
    split
    · simp
    · split
      · rename_i heq; subst heq; simp
      · simp only [List.mem_cons, ih]
        tauto

/-- Adding an address keeps the list rising. -/
theorem pairwise_insertAddr {addrs : List Nat} (a : Nat) (h : addrs.Pairwise (· < ·)) :
    (insertAddr addrs a).Pairwise (· < ·) := by
  induction addrs with
  | nil => simp [insertAddr]
  | cons k rest ih =>
    rw [List.pairwise_cons] at h
    simp only [insertAddr]
    split
    · rename_i hlt
      rw [List.pairwise_cons]
      refine ⟨fun b hb => ?_, List.pairwise_cons.2 h⟩
      rcases List.mem_cons.1 hb with rfl | hb
      · exact hlt
      · exact lt_trans hlt (h.1 b hb)
    · split
      · exact List.pairwise_cons.2 h
      · rename_i hlt hne
        rw [List.pairwise_cons]
        refine ⟨fun b hb => ?_, ih h.2⟩
        rcases (mem_insertAddr rest a b).1 hb with rfl | hb
        · omega
        · exact h.1 b hb

end Sys2Proof.Machine
end

