-- ==== Sys2Proof/Laws/State.lean ====
section
/-! SUPPORT. One lemma per field, and per accessor, of every update of the state: what it makes the field, or that it
leaves it alone. -/

namespace Sys2Proof.Machine

/-! ### setReg -/

@[simp] theorem State.setReg_regs (s : State) (n : RegNum) (v : Word) : (s.setReg n v).regs = s.regs.set n.toNat v n.isLt := rfl

@[simp] theorem State.setReg_pc (s : State) (n : RegNum) (v : Word) : (s.setReg n v).pc = s.pc := rfl

@[simp] theorem State.setReg_sr (s : State) (n : RegNum) (v : Word) : (s.setReg n v).sr = s.sr := rfl

@[simp] theorem State.setReg_gbr (s : State) (n : RegNum) (v : Word) : (s.setReg n v).gbr = s.gbr := rfl

@[simp] theorem State.setReg_vbr (s : State) (n : RegNum) (v : Word) : (s.setReg n v).vbr = s.vbr := rfl

@[simp] theorem State.setReg_mach (s : State) (n : RegNum) (v : Word) : (s.setReg n v).mach = s.mach := rfl

@[simp] theorem State.setReg_macl (s : State) (n : RegNum) (v : Word) : (s.setReg n v).macl = s.macl := rfl

@[simp] theorem State.setReg_pr (s : State) (n : RegNum) (v : Word) : (s.setReg n v).pr = s.pr := rfl

@[simp] theorem State.setReg_fregs (s : State) (n : RegNum) (v : Word) : (s.setReg n v).fregs = s.fregs := rfl

@[simp] theorem State.setReg_fpul (s : State) (n : RegNum) (v : Word) : (s.setReg n v).fpul = s.fpul := rfl

@[simp] theorem State.setReg_fpscr (s : State) (n : RegNum) (v : Word) : (s.setReg n v).fpscr = s.fpscr := rfl

@[simp] theorem State.setReg_mem (s : State) (n : RegNum) (v : Word) : (s.setReg n v).mem = s.mem := rfl

@[simp] theorem State.setReg_slot (s : State) (n : RegNum) (v : Word) : (s.setReg n v).slot = s.slot := rfl

@[simp] theorem State.setReg_inhibit (s : State) (n : RegNum) (v : Word) : (s.setReg n v).inhibit = s.inhibit := rfl

@[simp] theorem State.setReg_proc (s : State) (n : RegNum) (v : Word) : (s.setReg n v).proc = s.proc := rfl

@[simp] theorem State.setReg_fpuStopped (s : State) (n : RegNum) (v : Word) : (s.setReg n v).fpuStopped = s.fpuStopped := rfl

@[simp] theorem State.setReg_params (s : State) (n : RegNum) (v : Word) : (s.setReg n v).params = s.params := rfl

@[simp] theorem State.setReg_inputs (s : State) (n : RegNum) (v : Word) : (s.setReg n v).inputs = s.inputs := rfl

@[simp] theorem State.setReg_stored (s : State) (n : RegNum) (v : Word) : (s.setReg n v).stored = s.stored := rfl

@[simp] theorem State.setReg_tick (s : State) (n : RegNum) (v : Word) : (s.setReg n v).tick = s.tick := rfl

@[simp] theorem State.setReg_freg (s : State) (n : RegNum) (v : Word) (r : FRegNum) : (s.setReg n v).freg r = s.freg r := rfl

@[simp] theorem State.setReg_t (s : State) (n : RegNum) (v : Word) : (s.setReg n v).t = s.t := rfl

@[simp] theorem State.setReg_sBit (s : State) (n : RegNum) (v : Word) : (s.setReg n v).sBit = s.sBit := rfl

@[simp] theorem State.setReg_q (s : State) (n : RegNum) (v : Word) : (s.setReg n v).q = s.q := rfl

@[simp] theorem State.setReg_m (s : State) (n : RegNum) (v : Word) : (s.setReg n v).m = s.m := rfl

@[simp] theorem State.setReg_imask (s : State) (n : RegNum) (v : Word) : (s.setReg n v).imask = s.imask := rfl

@[simp] theorem State.setReg_ev (s : State) (n : RegNum) (v : Word) : (s.setReg n v).ev = s.ev := rfl

@[simp] theorem State.setReg_ez (s : State) (n : RegNum) (v : Word) : (s.setReg n v).ez = s.ez := rfl

@[simp] theorem State.setReg_mac (s : State) (n : RegNum) (v : Word) : (s.setReg n v).mac = s.mac := rfl

@[simp] theorem State.setReg_nextPc (s : State) (n : RegNum) (v : Word) : (s.setReg n v).nextPc = s.nextPc := rfl

@[simp] theorem State.setReg_pcOperand (s : State) (n : RegNum) (v : Word) : (s.setReg n v).pcOperand = s.pcOperand := rfl

@[simp] theorem State.setReg_kindAt (s : State) (n : RegNum) (v : Word) (a : Word) : (s.setReg n v).kindAt a = s.kindAt a := rfl

@[simp] theorem State.setReg_accessError (s : State) (n : RegNum) (v : Word) (kind : AccessKind) (width : Nat) (a : Word) : (s.setReg n v).accessError kind width a = s.accessError kind width a := rfl

@[simp] theorem State.setReg_byteAt (s : State) (n : RegNum) (v : Word) (k : Nat) (a : Word) : (s.setReg n v).byteAt k a = s.byteAt k a := rfl

@[simp] theorem State.setReg_halfAt (s : State) (n : RegNum) (v : Word) (k : Nat) (a : Word) : (s.setReg n v).halfAt k a = s.halfAt k a := rfl

@[simp] theorem State.setReg_longAt (s : State) (n : RegNum) (v : Word) (k : Nat) (a : Word) : (s.setReg n v).longAt k a = s.longAt k a := rfl

@[simp] theorem State.setReg_loadByte (s : State) (n : RegNum) (v : Word) (k : Nat) (a : Word) : (s.setReg n v).loadByte k a = s.loadByte k a := rfl

@[simp] theorem State.setReg_loadHalf (s : State) (n : RegNum) (v : Word) (k : Nat) (a : Word) : (s.setReg n v).loadHalf k a = s.loadHalf k a := rfl

@[simp] theorem State.setReg_loadLong (s : State) (n : RegNum) (v : Word) (k : Nat) (a : Word) : (s.setReg n v).loadLong k a = s.loadLong k a := rfl

@[simp] theorem State.setReg_vectorAddr (s : State) (n : RegNum) (v : Word) (vec : BitVec 8) : (s.setReg n v).vectorAddr vec = s.vectorAddr vec := rfl

@[simp] theorem State.setReg_stackedPc (s : State) (n : RegNum) (v : Word) (p : StackedPcPlain) (d : StackedPcSlot) : (s.setReg n v).stackedPc p d = s.stackedPc p d := rfl

/-! ### setFreg -/

@[simp] theorem State.setFreg_regs (s : State) (n : FRegNum) (v : Word) : (s.setFreg n v).regs = s.regs := rfl

@[simp] theorem State.setFreg_pc (s : State) (n : FRegNum) (v : Word) : (s.setFreg n v).pc = s.pc := rfl

@[simp] theorem State.setFreg_sr (s : State) (n : FRegNum) (v : Word) : (s.setFreg n v).sr = s.sr := rfl

@[simp] theorem State.setFreg_gbr (s : State) (n : FRegNum) (v : Word) : (s.setFreg n v).gbr = s.gbr := rfl

@[simp] theorem State.setFreg_vbr (s : State) (n : FRegNum) (v : Word) : (s.setFreg n v).vbr = s.vbr := rfl

@[simp] theorem State.setFreg_mach (s : State) (n : FRegNum) (v : Word) : (s.setFreg n v).mach = s.mach := rfl

@[simp] theorem State.setFreg_macl (s : State) (n : FRegNum) (v : Word) : (s.setFreg n v).macl = s.macl := rfl

@[simp] theorem State.setFreg_pr (s : State) (n : FRegNum) (v : Word) : (s.setFreg n v).pr = s.pr := rfl

@[simp] theorem State.setFreg_fregs (s : State) (n : FRegNum) (v : Word) : (s.setFreg n v).fregs = s.fregs.set n.toNat v n.isLt := rfl

@[simp] theorem State.setFreg_fpul (s : State) (n : FRegNum) (v : Word) : (s.setFreg n v).fpul = s.fpul := rfl

@[simp] theorem State.setFreg_fpscr (s : State) (n : FRegNum) (v : Word) : (s.setFreg n v).fpscr = s.fpscr := rfl

@[simp] theorem State.setFreg_mem (s : State) (n : FRegNum) (v : Word) : (s.setFreg n v).mem = s.mem := rfl

@[simp] theorem State.setFreg_slot (s : State) (n : FRegNum) (v : Word) : (s.setFreg n v).slot = s.slot := rfl

@[simp] theorem State.setFreg_inhibit (s : State) (n : FRegNum) (v : Word) : (s.setFreg n v).inhibit = s.inhibit := rfl

@[simp] theorem State.setFreg_proc (s : State) (n : FRegNum) (v : Word) : (s.setFreg n v).proc = s.proc := rfl

@[simp] theorem State.setFreg_fpuStopped (s : State) (n : FRegNum) (v : Word) : (s.setFreg n v).fpuStopped = s.fpuStopped := rfl

@[simp] theorem State.setFreg_params (s : State) (n : FRegNum) (v : Word) : (s.setFreg n v).params = s.params := rfl

@[simp] theorem State.setFreg_inputs (s : State) (n : FRegNum) (v : Word) : (s.setFreg n v).inputs = s.inputs := rfl

@[simp] theorem State.setFreg_stored (s : State) (n : FRegNum) (v : Word) : (s.setFreg n v).stored = s.stored := rfl

@[simp] theorem State.setFreg_tick (s : State) (n : FRegNum) (v : Word) : (s.setFreg n v).tick = s.tick := rfl

@[simp] theorem State.setFreg_reg (s : State) (n : FRegNum) (v : Word) (r : RegNum) : (s.setFreg n v).reg r = s.reg r := rfl

@[simp] theorem State.setFreg_t (s : State) (n : FRegNum) (v : Word) : (s.setFreg n v).t = s.t := rfl

@[simp] theorem State.setFreg_sBit (s : State) (n : FRegNum) (v : Word) : (s.setFreg n v).sBit = s.sBit := rfl

@[simp] theorem State.setFreg_q (s : State) (n : FRegNum) (v : Word) : (s.setFreg n v).q = s.q := rfl

@[simp] theorem State.setFreg_m (s : State) (n : FRegNum) (v : Word) : (s.setFreg n v).m = s.m := rfl

@[simp] theorem State.setFreg_imask (s : State) (n : FRegNum) (v : Word) : (s.setFreg n v).imask = s.imask := rfl

@[simp] theorem State.setFreg_ev (s : State) (n : FRegNum) (v : Word) : (s.setFreg n v).ev = s.ev := rfl

@[simp] theorem State.setFreg_ez (s : State) (n : FRegNum) (v : Word) : (s.setFreg n v).ez = s.ez := rfl

@[simp] theorem State.setFreg_mac (s : State) (n : FRegNum) (v : Word) : (s.setFreg n v).mac = s.mac := rfl

@[simp] theorem State.setFreg_nextPc (s : State) (n : FRegNum) (v : Word) : (s.setFreg n v).nextPc = s.nextPc := rfl

@[simp] theorem State.setFreg_pcOperand (s : State) (n : FRegNum) (v : Word) : (s.setFreg n v).pcOperand = s.pcOperand := rfl

@[simp] theorem State.setFreg_kindAt (s : State) (n : FRegNum) (v : Word) (a : Word) : (s.setFreg n v).kindAt a = s.kindAt a := rfl

@[simp] theorem State.setFreg_accessError (s : State) (n : FRegNum) (v : Word) (kind : AccessKind) (width : Nat) (a : Word) : (s.setFreg n v).accessError kind width a = s.accessError kind width a := rfl

@[simp] theorem State.setFreg_byteAt (s : State) (n : FRegNum) (v : Word) (k : Nat) (a : Word) : (s.setFreg n v).byteAt k a = s.byteAt k a := rfl

@[simp] theorem State.setFreg_halfAt (s : State) (n : FRegNum) (v : Word) (k : Nat) (a : Word) : (s.setFreg n v).halfAt k a = s.halfAt k a := rfl

@[simp] theorem State.setFreg_longAt (s : State) (n : FRegNum) (v : Word) (k : Nat) (a : Word) : (s.setFreg n v).longAt k a = s.longAt k a := rfl

@[simp] theorem State.setFreg_loadByte (s : State) (n : FRegNum) (v : Word) (k : Nat) (a : Word) : (s.setFreg n v).loadByte k a = s.loadByte k a := rfl

@[simp] theorem State.setFreg_loadHalf (s : State) (n : FRegNum) (v : Word) (k : Nat) (a : Word) : (s.setFreg n v).loadHalf k a = s.loadHalf k a := rfl

@[simp] theorem State.setFreg_loadLong (s : State) (n : FRegNum) (v : Word) (k : Nat) (a : Word) : (s.setFreg n v).loadLong k a = s.loadLong k a := rfl

@[simp] theorem State.setFreg_vectorAddr (s : State) (n : FRegNum) (v : Word) (vec : BitVec 8) : (s.setFreg n v).vectorAddr vec = s.vectorAddr vec := rfl

@[simp] theorem State.setFreg_stackedPc (s : State) (n : FRegNum) (v : Word) (p : StackedPcPlain) (d : StackedPcSlot) : (s.setFreg n v).stackedPc p d = s.stackedPc p d := rfl

/-! ### setT -/

@[simp] theorem State.setT_regs (s : State) (b : Bool) : (s.setT b).regs = s.regs := rfl

@[simp] theorem State.setT_pc (s : State) (b : Bool) : (s.setT b).pc = s.pc := rfl

@[simp] theorem State.setT_sr (s : State) (b : Bool) : (s.setT b).sr = setBit s.sr 0 b := rfl

@[simp] theorem State.setT_gbr (s : State) (b : Bool) : (s.setT b).gbr = s.gbr := rfl

@[simp] theorem State.setT_vbr (s : State) (b : Bool) : (s.setT b).vbr = s.vbr := rfl

@[simp] theorem State.setT_mach (s : State) (b : Bool) : (s.setT b).mach = s.mach := rfl

@[simp] theorem State.setT_macl (s : State) (b : Bool) : (s.setT b).macl = s.macl := rfl

@[simp] theorem State.setT_pr (s : State) (b : Bool) : (s.setT b).pr = s.pr := rfl

@[simp] theorem State.setT_fregs (s : State) (b : Bool) : (s.setT b).fregs = s.fregs := rfl

@[simp] theorem State.setT_fpul (s : State) (b : Bool) : (s.setT b).fpul = s.fpul := rfl

@[simp] theorem State.setT_fpscr (s : State) (b : Bool) : (s.setT b).fpscr = s.fpscr := rfl

@[simp] theorem State.setT_mem (s : State) (b : Bool) : (s.setT b).mem = s.mem := rfl

@[simp] theorem State.setT_slot (s : State) (b : Bool) : (s.setT b).slot = s.slot := rfl

@[simp] theorem State.setT_inhibit (s : State) (b : Bool) : (s.setT b).inhibit = s.inhibit := rfl

@[simp] theorem State.setT_proc (s : State) (b : Bool) : (s.setT b).proc = s.proc := rfl

@[simp] theorem State.setT_fpuStopped (s : State) (b : Bool) : (s.setT b).fpuStopped = s.fpuStopped := rfl

@[simp] theorem State.setT_params (s : State) (b : Bool) : (s.setT b).params = s.params := rfl

@[simp] theorem State.setT_inputs (s : State) (b : Bool) : (s.setT b).inputs = s.inputs := rfl

@[simp] theorem State.setT_stored (s : State) (b : Bool) : (s.setT b).stored = s.stored := rfl

@[simp] theorem State.setT_tick (s : State) (b : Bool) : (s.setT b).tick = s.tick := rfl

@[simp] theorem State.setT_reg (s : State) (b : Bool) (r : RegNum) : (s.setT b).reg r = s.reg r := rfl

@[simp] theorem State.setT_freg (s : State) (b : Bool) (r : FRegNum) : (s.setT b).freg r = s.freg r := rfl

@[simp] theorem State.setT_ev (s : State) (b : Bool) : (s.setT b).ev = s.ev := rfl

@[simp] theorem State.setT_ez (s : State) (b : Bool) : (s.setT b).ez = s.ez := rfl

@[simp] theorem State.setT_mac (s : State) (b : Bool) : (s.setT b).mac = s.mac := rfl

@[simp] theorem State.setT_nextPc (s : State) (b : Bool) : (s.setT b).nextPc = s.nextPc := rfl

@[simp] theorem State.setT_pcOperand (s : State) (b : Bool) : (s.setT b).pcOperand = s.pcOperand := rfl

@[simp] theorem State.setT_kindAt (s : State) (b : Bool) (a : Word) : (s.setT b).kindAt a = s.kindAt a := rfl

@[simp] theorem State.setT_accessError (s : State) (b : Bool) (kind : AccessKind) (width : Nat) (a : Word) : (s.setT b).accessError kind width a = s.accessError kind width a := rfl

@[simp] theorem State.setT_byteAt (s : State) (b : Bool) (k : Nat) (a : Word) : (s.setT b).byteAt k a = s.byteAt k a := rfl

@[simp] theorem State.setT_halfAt (s : State) (b : Bool) (k : Nat) (a : Word) : (s.setT b).halfAt k a = s.halfAt k a := rfl

@[simp] theorem State.setT_longAt (s : State) (b : Bool) (k : Nat) (a : Word) : (s.setT b).longAt k a = s.longAt k a := rfl

@[simp] theorem State.setT_loadByte (s : State) (b : Bool) (k : Nat) (a : Word) : (s.setT b).loadByte k a = s.loadByte k a := rfl

@[simp] theorem State.setT_loadHalf (s : State) (b : Bool) (k : Nat) (a : Word) : (s.setT b).loadHalf k a = s.loadHalf k a := rfl

@[simp] theorem State.setT_loadLong (s : State) (b : Bool) (k : Nat) (a : Word) : (s.setT b).loadLong k a = s.loadLong k a := rfl

@[simp] theorem State.setT_vectorAddr (s : State) (b : Bool) (v : BitVec 8) : (s.setT b).vectorAddr v = s.vectorAddr v := rfl

@[simp] theorem State.setT_stackedPc (s : State) (b : Bool) (p : StackedPcPlain) (d : StackedPcSlot) : (s.setT b).stackedPc p d = s.stackedPc p d := rfl

/-! ### setQ -/

@[simp] theorem State.setQ_regs (s : State) (b : Bool) : (s.setQ b).regs = s.regs := rfl

@[simp] theorem State.setQ_pc (s : State) (b : Bool) : (s.setQ b).pc = s.pc := rfl

@[simp] theorem State.setQ_sr (s : State) (b : Bool) : (s.setQ b).sr = setBit s.sr 8 b := rfl

@[simp] theorem State.setQ_gbr (s : State) (b : Bool) : (s.setQ b).gbr = s.gbr := rfl

@[simp] theorem State.setQ_vbr (s : State) (b : Bool) : (s.setQ b).vbr = s.vbr := rfl

@[simp] theorem State.setQ_mach (s : State) (b : Bool) : (s.setQ b).mach = s.mach := rfl

@[simp] theorem State.setQ_macl (s : State) (b : Bool) : (s.setQ b).macl = s.macl := rfl

@[simp] theorem State.setQ_pr (s : State) (b : Bool) : (s.setQ b).pr = s.pr := rfl

@[simp] theorem State.setQ_fregs (s : State) (b : Bool) : (s.setQ b).fregs = s.fregs := rfl

@[simp] theorem State.setQ_fpul (s : State) (b : Bool) : (s.setQ b).fpul = s.fpul := rfl

@[simp] theorem State.setQ_fpscr (s : State) (b : Bool) : (s.setQ b).fpscr = s.fpscr := rfl

@[simp] theorem State.setQ_mem (s : State) (b : Bool) : (s.setQ b).mem = s.mem := rfl

@[simp] theorem State.setQ_slot (s : State) (b : Bool) : (s.setQ b).slot = s.slot := rfl

@[simp] theorem State.setQ_inhibit (s : State) (b : Bool) : (s.setQ b).inhibit = s.inhibit := rfl

@[simp] theorem State.setQ_proc (s : State) (b : Bool) : (s.setQ b).proc = s.proc := rfl

@[simp] theorem State.setQ_fpuStopped (s : State) (b : Bool) : (s.setQ b).fpuStopped = s.fpuStopped := rfl

@[simp] theorem State.setQ_params (s : State) (b : Bool) : (s.setQ b).params = s.params := rfl

@[simp] theorem State.setQ_inputs (s : State) (b : Bool) : (s.setQ b).inputs = s.inputs := rfl

@[simp] theorem State.setQ_stored (s : State) (b : Bool) : (s.setQ b).stored = s.stored := rfl

@[simp] theorem State.setQ_tick (s : State) (b : Bool) : (s.setQ b).tick = s.tick := rfl

@[simp] theorem State.setQ_reg (s : State) (b : Bool) (r : RegNum) : (s.setQ b).reg r = s.reg r := rfl

@[simp] theorem State.setQ_freg (s : State) (b : Bool) (r : FRegNum) : (s.setQ b).freg r = s.freg r := rfl

@[simp] theorem State.setQ_ev (s : State) (b : Bool) : (s.setQ b).ev = s.ev := rfl

@[simp] theorem State.setQ_ez (s : State) (b : Bool) : (s.setQ b).ez = s.ez := rfl

@[simp] theorem State.setQ_mac (s : State) (b : Bool) : (s.setQ b).mac = s.mac := rfl

@[simp] theorem State.setQ_nextPc (s : State) (b : Bool) : (s.setQ b).nextPc = s.nextPc := rfl

@[simp] theorem State.setQ_pcOperand (s : State) (b : Bool) : (s.setQ b).pcOperand = s.pcOperand := rfl

@[simp] theorem State.setQ_kindAt (s : State) (b : Bool) (a : Word) : (s.setQ b).kindAt a = s.kindAt a := rfl

@[simp] theorem State.setQ_accessError (s : State) (b : Bool) (kind : AccessKind) (width : Nat) (a : Word) : (s.setQ b).accessError kind width a = s.accessError kind width a := rfl

@[simp] theorem State.setQ_byteAt (s : State) (b : Bool) (k : Nat) (a : Word) : (s.setQ b).byteAt k a = s.byteAt k a := rfl

@[simp] theorem State.setQ_halfAt (s : State) (b : Bool) (k : Nat) (a : Word) : (s.setQ b).halfAt k a = s.halfAt k a := rfl

@[simp] theorem State.setQ_longAt (s : State) (b : Bool) (k : Nat) (a : Word) : (s.setQ b).longAt k a = s.longAt k a := rfl

@[simp] theorem State.setQ_loadByte (s : State) (b : Bool) (k : Nat) (a : Word) : (s.setQ b).loadByte k a = s.loadByte k a := rfl

@[simp] theorem State.setQ_loadHalf (s : State) (b : Bool) (k : Nat) (a : Word) : (s.setQ b).loadHalf k a = s.loadHalf k a := rfl

@[simp] theorem State.setQ_loadLong (s : State) (b : Bool) (k : Nat) (a : Word) : (s.setQ b).loadLong k a = s.loadLong k a := rfl

@[simp] theorem State.setQ_vectorAddr (s : State) (b : Bool) (v : BitVec 8) : (s.setQ b).vectorAddr v = s.vectorAddr v := rfl

@[simp] theorem State.setQ_stackedPc (s : State) (b : Bool) (p : StackedPcPlain) (d : StackedPcSlot) : (s.setQ b).stackedPc p d = s.stackedPc p d := rfl

/-! ### setM -/

@[simp] theorem State.setM_regs (s : State) (b : Bool) : (s.setM b).regs = s.regs := rfl

@[simp] theorem State.setM_pc (s : State) (b : Bool) : (s.setM b).pc = s.pc := rfl

@[simp] theorem State.setM_sr (s : State) (b : Bool) : (s.setM b).sr = setBit s.sr 9 b := rfl

@[simp] theorem State.setM_gbr (s : State) (b : Bool) : (s.setM b).gbr = s.gbr := rfl

@[simp] theorem State.setM_vbr (s : State) (b : Bool) : (s.setM b).vbr = s.vbr := rfl

@[simp] theorem State.setM_mach (s : State) (b : Bool) : (s.setM b).mach = s.mach := rfl

@[simp] theorem State.setM_macl (s : State) (b : Bool) : (s.setM b).macl = s.macl := rfl

@[simp] theorem State.setM_pr (s : State) (b : Bool) : (s.setM b).pr = s.pr := rfl

@[simp] theorem State.setM_fregs (s : State) (b : Bool) : (s.setM b).fregs = s.fregs := rfl

@[simp] theorem State.setM_fpul (s : State) (b : Bool) : (s.setM b).fpul = s.fpul := rfl

@[simp] theorem State.setM_fpscr (s : State) (b : Bool) : (s.setM b).fpscr = s.fpscr := rfl

@[simp] theorem State.setM_mem (s : State) (b : Bool) : (s.setM b).mem = s.mem := rfl

@[simp] theorem State.setM_slot (s : State) (b : Bool) : (s.setM b).slot = s.slot := rfl

@[simp] theorem State.setM_inhibit (s : State) (b : Bool) : (s.setM b).inhibit = s.inhibit := rfl

@[simp] theorem State.setM_proc (s : State) (b : Bool) : (s.setM b).proc = s.proc := rfl

@[simp] theorem State.setM_fpuStopped (s : State) (b : Bool) : (s.setM b).fpuStopped = s.fpuStopped := rfl

@[simp] theorem State.setM_params (s : State) (b : Bool) : (s.setM b).params = s.params := rfl

@[simp] theorem State.setM_inputs (s : State) (b : Bool) : (s.setM b).inputs = s.inputs := rfl

@[simp] theorem State.setM_stored (s : State) (b : Bool) : (s.setM b).stored = s.stored := rfl

@[simp] theorem State.setM_tick (s : State) (b : Bool) : (s.setM b).tick = s.tick := rfl

@[simp] theorem State.setM_reg (s : State) (b : Bool) (r : RegNum) : (s.setM b).reg r = s.reg r := rfl

@[simp] theorem State.setM_freg (s : State) (b : Bool) (r : FRegNum) : (s.setM b).freg r = s.freg r := rfl

@[simp] theorem State.setM_ev (s : State) (b : Bool) : (s.setM b).ev = s.ev := rfl

@[simp] theorem State.setM_ez (s : State) (b : Bool) : (s.setM b).ez = s.ez := rfl

@[simp] theorem State.setM_mac (s : State) (b : Bool) : (s.setM b).mac = s.mac := rfl

@[simp] theorem State.setM_nextPc (s : State) (b : Bool) : (s.setM b).nextPc = s.nextPc := rfl

@[simp] theorem State.setM_pcOperand (s : State) (b : Bool) : (s.setM b).pcOperand = s.pcOperand := rfl

@[simp] theorem State.setM_kindAt (s : State) (b : Bool) (a : Word) : (s.setM b).kindAt a = s.kindAt a := rfl

@[simp] theorem State.setM_accessError (s : State) (b : Bool) (kind : AccessKind) (width : Nat) (a : Word) : (s.setM b).accessError kind width a = s.accessError kind width a := rfl

@[simp] theorem State.setM_byteAt (s : State) (b : Bool) (k : Nat) (a : Word) : (s.setM b).byteAt k a = s.byteAt k a := rfl

@[simp] theorem State.setM_halfAt (s : State) (b : Bool) (k : Nat) (a : Word) : (s.setM b).halfAt k a = s.halfAt k a := rfl

@[simp] theorem State.setM_longAt (s : State) (b : Bool) (k : Nat) (a : Word) : (s.setM b).longAt k a = s.longAt k a := rfl

@[simp] theorem State.setM_loadByte (s : State) (b : Bool) (k : Nat) (a : Word) : (s.setM b).loadByte k a = s.loadByte k a := rfl

@[simp] theorem State.setM_loadHalf (s : State) (b : Bool) (k : Nat) (a : Word) : (s.setM b).loadHalf k a = s.loadHalf k a := rfl

@[simp] theorem State.setM_loadLong (s : State) (b : Bool) (k : Nat) (a : Word) : (s.setM b).loadLong k a = s.loadLong k a := rfl

@[simp] theorem State.setM_vectorAddr (s : State) (b : Bool) (v : BitVec 8) : (s.setM b).vectorAddr v = s.vectorAddr v := rfl

@[simp] theorem State.setM_stackedPc (s : State) (b : Bool) (p : StackedPcPlain) (d : StackedPcSlot) : (s.setM b).stackedPc p d = s.stackedPc p d := rfl

/-! ### setImask -/

@[simp] theorem State.setImask_regs (s : State) (l : BitVec 4) : (s.setImask l).regs = s.regs := rfl

@[simp] theorem State.setImask_pc (s : State) (l : BitVec 4) : (s.setImask l).pc = s.pc := rfl

@[simp] theorem State.setImask_sr (s : State) (l : BitVec 4) : (s.setImask l).sr = (s.sr &&& 0xFFFFFF0F) ||| (l.setWidth 32 <<< 4) := rfl

@[simp] theorem State.setImask_gbr (s : State) (l : BitVec 4) : (s.setImask l).gbr = s.gbr := rfl

@[simp] theorem State.setImask_vbr (s : State) (l : BitVec 4) : (s.setImask l).vbr = s.vbr := rfl

@[simp] theorem State.setImask_mach (s : State) (l : BitVec 4) : (s.setImask l).mach = s.mach := rfl

@[simp] theorem State.setImask_macl (s : State) (l : BitVec 4) : (s.setImask l).macl = s.macl := rfl

@[simp] theorem State.setImask_pr (s : State) (l : BitVec 4) : (s.setImask l).pr = s.pr := rfl

@[simp] theorem State.setImask_fregs (s : State) (l : BitVec 4) : (s.setImask l).fregs = s.fregs := rfl

@[simp] theorem State.setImask_fpul (s : State) (l : BitVec 4) : (s.setImask l).fpul = s.fpul := rfl

@[simp] theorem State.setImask_fpscr (s : State) (l : BitVec 4) : (s.setImask l).fpscr = s.fpscr := rfl

@[simp] theorem State.setImask_mem (s : State) (l : BitVec 4) : (s.setImask l).mem = s.mem := rfl

@[simp] theorem State.setImask_slot (s : State) (l : BitVec 4) : (s.setImask l).slot = s.slot := rfl

@[simp] theorem State.setImask_inhibit (s : State) (l : BitVec 4) : (s.setImask l).inhibit = s.inhibit := rfl

@[simp] theorem State.setImask_proc (s : State) (l : BitVec 4) : (s.setImask l).proc = s.proc := rfl

@[simp] theorem State.setImask_fpuStopped (s : State) (l : BitVec 4) : (s.setImask l).fpuStopped = s.fpuStopped := rfl

@[simp] theorem State.setImask_params (s : State) (l : BitVec 4) : (s.setImask l).params = s.params := rfl

@[simp] theorem State.setImask_inputs (s : State) (l : BitVec 4) : (s.setImask l).inputs = s.inputs := rfl

@[simp] theorem State.setImask_stored (s : State) (l : BitVec 4) : (s.setImask l).stored = s.stored := rfl

@[simp] theorem State.setImask_tick (s : State) (l : BitVec 4) : (s.setImask l).tick = s.tick := rfl

@[simp] theorem State.setImask_reg (s : State) (l : BitVec 4) (r : RegNum) : (s.setImask l).reg r = s.reg r := rfl

@[simp] theorem State.setImask_freg (s : State) (l : BitVec 4) (r : FRegNum) : (s.setImask l).freg r = s.freg r := rfl

@[simp] theorem State.setImask_ev (s : State) (l : BitVec 4) : (s.setImask l).ev = s.ev := rfl

@[simp] theorem State.setImask_ez (s : State) (l : BitVec 4) : (s.setImask l).ez = s.ez := rfl

@[simp] theorem State.setImask_mac (s : State) (l : BitVec 4) : (s.setImask l).mac = s.mac := rfl

@[simp] theorem State.setImask_nextPc (s : State) (l : BitVec 4) : (s.setImask l).nextPc = s.nextPc := rfl

@[simp] theorem State.setImask_pcOperand (s : State) (l : BitVec 4) : (s.setImask l).pcOperand = s.pcOperand := rfl

@[simp] theorem State.setImask_kindAt (s : State) (l : BitVec 4) (a : Word) : (s.setImask l).kindAt a = s.kindAt a := rfl

@[simp] theorem State.setImask_accessError (s : State) (l : BitVec 4) (kind : AccessKind) (width : Nat) (a : Word) : (s.setImask l).accessError kind width a = s.accessError kind width a := rfl

@[simp] theorem State.setImask_byteAt (s : State) (l : BitVec 4) (k : Nat) (a : Word) : (s.setImask l).byteAt k a = s.byteAt k a := rfl

@[simp] theorem State.setImask_halfAt (s : State) (l : BitVec 4) (k : Nat) (a : Word) : (s.setImask l).halfAt k a = s.halfAt k a := rfl

@[simp] theorem State.setImask_longAt (s : State) (l : BitVec 4) (k : Nat) (a : Word) : (s.setImask l).longAt k a = s.longAt k a := rfl

@[simp] theorem State.setImask_loadByte (s : State) (l : BitVec 4) (k : Nat) (a : Word) : (s.setImask l).loadByte k a = s.loadByte k a := rfl

@[simp] theorem State.setImask_loadHalf (s : State) (l : BitVec 4) (k : Nat) (a : Word) : (s.setImask l).loadHalf k a = s.loadHalf k a := rfl

@[simp] theorem State.setImask_loadLong (s : State) (l : BitVec 4) (k : Nat) (a : Word) : (s.setImask l).loadLong k a = s.loadLong k a := rfl

@[simp] theorem State.setImask_vectorAddr (s : State) (l : BitVec 4) (v : BitVec 8) : (s.setImask l).vectorAddr v = s.vectorAddr v := rfl

@[simp] theorem State.setImask_stackedPc (s : State) (l : BitVec 4) (p : StackedPcPlain) (d : StackedPcSlot) : (s.setImask l).stackedPc p d = s.stackedPc p d := rfl

/-! ### writeSr -/

@[simp] theorem State.writeSr_regs (s : State) (v : Word) : (s.writeSr v).regs = s.regs := rfl

@[simp] theorem State.writeSr_pc (s : State) (v : Word) : (s.writeSr v).pc = s.pc := rfl

@[simp] theorem State.writeSr_sr (s : State) (v : Word) : (s.writeSr v).sr = v &&& srWriteMask s.params := rfl

@[simp] theorem State.writeSr_gbr (s : State) (v : Word) : (s.writeSr v).gbr = s.gbr := rfl

@[simp] theorem State.writeSr_vbr (s : State) (v : Word) : (s.writeSr v).vbr = s.vbr := rfl

@[simp] theorem State.writeSr_mach (s : State) (v : Word) : (s.writeSr v).mach = s.mach := rfl

@[simp] theorem State.writeSr_macl (s : State) (v : Word) : (s.writeSr v).macl = s.macl := rfl

@[simp] theorem State.writeSr_pr (s : State) (v : Word) : (s.writeSr v).pr = s.pr := rfl

@[simp] theorem State.writeSr_fregs (s : State) (v : Word) : (s.writeSr v).fregs = s.fregs := rfl

@[simp] theorem State.writeSr_fpul (s : State) (v : Word) : (s.writeSr v).fpul = s.fpul := rfl

@[simp] theorem State.writeSr_fpscr (s : State) (v : Word) : (s.writeSr v).fpscr = s.fpscr := rfl

@[simp] theorem State.writeSr_mem (s : State) (v : Word) : (s.writeSr v).mem = s.mem := rfl

@[simp] theorem State.writeSr_slot (s : State) (v : Word) : (s.writeSr v).slot = s.slot := rfl

@[simp] theorem State.writeSr_inhibit (s : State) (v : Word) : (s.writeSr v).inhibit = s.inhibit := rfl

@[simp] theorem State.writeSr_proc (s : State) (v : Word) : (s.writeSr v).proc = s.proc := rfl

@[simp] theorem State.writeSr_fpuStopped (s : State) (v : Word) : (s.writeSr v).fpuStopped = s.fpuStopped := rfl

@[simp] theorem State.writeSr_params (s : State) (v : Word) : (s.writeSr v).params = s.params := rfl

@[simp] theorem State.writeSr_inputs (s : State) (v : Word) : (s.writeSr v).inputs = s.inputs := rfl

@[simp] theorem State.writeSr_stored (s : State) (v : Word) : (s.writeSr v).stored = s.stored := rfl

@[simp] theorem State.writeSr_tick (s : State) (v : Word) : (s.writeSr v).tick = s.tick := rfl

@[simp] theorem State.writeSr_reg (s : State) (v : Word) (r : RegNum) : (s.writeSr v).reg r = s.reg r := rfl

@[simp] theorem State.writeSr_freg (s : State) (v : Word) (r : FRegNum) : (s.writeSr v).freg r = s.freg r := rfl

@[simp] theorem State.writeSr_ev (s : State) (v : Word) : (s.writeSr v).ev = s.ev := rfl

@[simp] theorem State.writeSr_ez (s : State) (v : Word) : (s.writeSr v).ez = s.ez := rfl

@[simp] theorem State.writeSr_mac (s : State) (v : Word) : (s.writeSr v).mac = s.mac := rfl

@[simp] theorem State.writeSr_nextPc (s : State) (v : Word) : (s.writeSr v).nextPc = s.nextPc := rfl

@[simp] theorem State.writeSr_pcOperand (s : State) (v : Word) : (s.writeSr v).pcOperand = s.pcOperand := rfl

@[simp] theorem State.writeSr_kindAt (s : State) (v : Word) (a : Word) : (s.writeSr v).kindAt a = s.kindAt a := rfl

@[simp] theorem State.writeSr_accessError (s : State) (v : Word) (kind : AccessKind) (width : Nat) (a : Word) : (s.writeSr v).accessError kind width a = s.accessError kind width a := rfl

@[simp] theorem State.writeSr_byteAt (s : State) (v : Word) (k : Nat) (a : Word) : (s.writeSr v).byteAt k a = s.byteAt k a := rfl

@[simp] theorem State.writeSr_halfAt (s : State) (v : Word) (k : Nat) (a : Word) : (s.writeSr v).halfAt k a = s.halfAt k a := rfl

@[simp] theorem State.writeSr_longAt (s : State) (v : Word) (k : Nat) (a : Word) : (s.writeSr v).longAt k a = s.longAt k a := rfl

@[simp] theorem State.writeSr_loadByte (s : State) (v : Word) (k : Nat) (a : Word) : (s.writeSr v).loadByte k a = s.loadByte k a := rfl

@[simp] theorem State.writeSr_loadHalf (s : State) (v : Word) (k : Nat) (a : Word) : (s.writeSr v).loadHalf k a = s.loadHalf k a := rfl

@[simp] theorem State.writeSr_loadLong (s : State) (v : Word) (k : Nat) (a : Word) : (s.writeSr v).loadLong k a = s.loadLong k a := rfl

@[simp] theorem State.writeSr_vectorAddr (s : State) (v : Word) (vec : BitVec 8) : (s.writeSr v).vectorAddr vec = s.vectorAddr vec := rfl

@[simp] theorem State.writeSr_stackedPc (s : State) (v : Word) (p : StackedPcPlain) (d : StackedPcSlot) : (s.writeSr v).stackedPc p d = s.stackedPc p d := rfl

/-! ### writeFpscr -/

@[simp] theorem State.writeFpscr_regs (s : State) (v : Word) : (s.writeFpscr v).regs = s.regs := rfl

@[simp] theorem State.writeFpscr_pc (s : State) (v : Word) : (s.writeFpscr v).pc = s.pc := rfl

@[simp] theorem State.writeFpscr_sr (s : State) (v : Word) : (s.writeFpscr v).sr = s.sr := rfl

@[simp] theorem State.writeFpscr_gbr (s : State) (v : Word) : (s.writeFpscr v).gbr = s.gbr := rfl

@[simp] theorem State.writeFpscr_vbr (s : State) (v : Word) : (s.writeFpscr v).vbr = s.vbr := rfl

@[simp] theorem State.writeFpscr_mach (s : State) (v : Word) : (s.writeFpscr v).mach = s.mach := rfl

@[simp] theorem State.writeFpscr_macl (s : State) (v : Word) : (s.writeFpscr v).macl = s.macl := rfl

@[simp] theorem State.writeFpscr_pr (s : State) (v : Word) : (s.writeFpscr v).pr = s.pr := rfl

@[simp] theorem State.writeFpscr_fregs (s : State) (v : Word) : (s.writeFpscr v).fregs = s.fregs := rfl

@[simp] theorem State.writeFpscr_fpul (s : State) (v : Word) : (s.writeFpscr v).fpul = s.fpul := rfl

@[simp] theorem State.writeFpscr_fpscr (s : State) (v : Word) : (s.writeFpscr v).fpscr = fpscrValue v := rfl

@[simp] theorem State.writeFpscr_mem (s : State) (v : Word) : (s.writeFpscr v).mem = s.mem := rfl

@[simp] theorem State.writeFpscr_slot (s : State) (v : Word) : (s.writeFpscr v).slot = s.slot := rfl

@[simp] theorem State.writeFpscr_inhibit (s : State) (v : Word) : (s.writeFpscr v).inhibit = s.inhibit := rfl

@[simp] theorem State.writeFpscr_proc (s : State) (v : Word) : (s.writeFpscr v).proc = s.proc := rfl

@[simp] theorem State.writeFpscr_fpuStopped (s : State) (v : Word) : (s.writeFpscr v).fpuStopped = s.fpuStopped := rfl

@[simp] theorem State.writeFpscr_params (s : State) (v : Word) : (s.writeFpscr v).params = s.params := rfl

@[simp] theorem State.writeFpscr_inputs (s : State) (v : Word) : (s.writeFpscr v).inputs = s.inputs := rfl

@[simp] theorem State.writeFpscr_stored (s : State) (v : Word) : (s.writeFpscr v).stored = s.stored := rfl

@[simp] theorem State.writeFpscr_tick (s : State) (v : Word) : (s.writeFpscr v).tick = s.tick := rfl

@[simp] theorem State.writeFpscr_reg (s : State) (v : Word) (r : RegNum) : (s.writeFpscr v).reg r = s.reg r := rfl

@[simp] theorem State.writeFpscr_freg (s : State) (v : Word) (r : FRegNum) : (s.writeFpscr v).freg r = s.freg r := rfl

@[simp] theorem State.writeFpscr_t (s : State) (v : Word) : (s.writeFpscr v).t = s.t := rfl

@[simp] theorem State.writeFpscr_sBit (s : State) (v : Word) : (s.writeFpscr v).sBit = s.sBit := rfl

@[simp] theorem State.writeFpscr_q (s : State) (v : Word) : (s.writeFpscr v).q = s.q := rfl

@[simp] theorem State.writeFpscr_m (s : State) (v : Word) : (s.writeFpscr v).m = s.m := rfl

@[simp] theorem State.writeFpscr_imask (s : State) (v : Word) : (s.writeFpscr v).imask = s.imask := rfl

@[simp] theorem State.writeFpscr_mac (s : State) (v : Word) : (s.writeFpscr v).mac = s.mac := rfl

@[simp] theorem State.writeFpscr_nextPc (s : State) (v : Word) : (s.writeFpscr v).nextPc = s.nextPc := rfl

@[simp] theorem State.writeFpscr_pcOperand (s : State) (v : Word) : (s.writeFpscr v).pcOperand = s.pcOperand := rfl

@[simp] theorem State.writeFpscr_kindAt (s : State) (v : Word) (a : Word) : (s.writeFpscr v).kindAt a = s.kindAt a := rfl

@[simp] theorem State.writeFpscr_accessError (s : State) (v : Word) (kind : AccessKind) (width : Nat) (a : Word) : (s.writeFpscr v).accessError kind width a = s.accessError kind width a := rfl

@[simp] theorem State.writeFpscr_byteAt (s : State) (v : Word) (k : Nat) (a : Word) : (s.writeFpscr v).byteAt k a = s.byteAt k a := rfl

@[simp] theorem State.writeFpscr_halfAt (s : State) (v : Word) (k : Nat) (a : Word) : (s.writeFpscr v).halfAt k a = s.halfAt k a := rfl

@[simp] theorem State.writeFpscr_longAt (s : State) (v : Word) (k : Nat) (a : Word) : (s.writeFpscr v).longAt k a = s.longAt k a := rfl

@[simp] theorem State.writeFpscr_loadByte (s : State) (v : Word) (k : Nat) (a : Word) : (s.writeFpscr v).loadByte k a = s.loadByte k a := rfl

@[simp] theorem State.writeFpscr_loadHalf (s : State) (v : Word) (k : Nat) (a : Word) : (s.writeFpscr v).loadHalf k a = s.loadHalf k a := rfl

@[simp] theorem State.writeFpscr_loadLong (s : State) (v : Word) (k : Nat) (a : Word) : (s.writeFpscr v).loadLong k a = s.loadLong k a := rfl

@[simp] theorem State.writeFpscr_vectorAddr (s : State) (v : Word) (vec : BitVec 8) : (s.writeFpscr v).vectorAddr vec = s.vectorAddr vec := rfl

@[simp] theorem State.writeFpscr_stackedPc (s : State) (v : Word) (p : StackedPcPlain) (d : StackedPcSlot) : (s.writeFpscr v).stackedPc p d = s.stackedPc p d := rfl

/-! ### clearCause -/

@[simp] theorem State.clearCause_regs (s : State) : (s.clearCause).regs = s.regs := rfl

@[simp] theorem State.clearCause_pc (s : State) : (s.clearCause).pc = s.pc := rfl

@[simp] theorem State.clearCause_sr (s : State) : (s.clearCause).sr = s.sr := rfl

@[simp] theorem State.clearCause_gbr (s : State) : (s.clearCause).gbr = s.gbr := rfl

@[simp] theorem State.clearCause_vbr (s : State) : (s.clearCause).vbr = s.vbr := rfl

@[simp] theorem State.clearCause_mach (s : State) : (s.clearCause).mach = s.mach := rfl

@[simp] theorem State.clearCause_macl (s : State) : (s.clearCause).macl = s.macl := rfl

@[simp] theorem State.clearCause_pr (s : State) : (s.clearCause).pr = s.pr := rfl

@[simp] theorem State.clearCause_fregs (s : State) : (s.clearCause).fregs = s.fregs := rfl

@[simp] theorem State.clearCause_fpul (s : State) : (s.clearCause).fpul = s.fpul := rfl

@[simp] theorem State.clearCause_fpscr (s : State) : (s.clearCause).fpscr = setBit (setBit s.fpscr 16 false) 15 false := rfl

@[simp] theorem State.clearCause_mem (s : State) : (s.clearCause).mem = s.mem := rfl

@[simp] theorem State.clearCause_slot (s : State) : (s.clearCause).slot = s.slot := rfl

@[simp] theorem State.clearCause_inhibit (s : State) : (s.clearCause).inhibit = s.inhibit := rfl

@[simp] theorem State.clearCause_proc (s : State) : (s.clearCause).proc = s.proc := rfl

@[simp] theorem State.clearCause_fpuStopped (s : State) : (s.clearCause).fpuStopped = s.fpuStopped := rfl

@[simp] theorem State.clearCause_params (s : State) : (s.clearCause).params = s.params := rfl

@[simp] theorem State.clearCause_inputs (s : State) : (s.clearCause).inputs = s.inputs := rfl

@[simp] theorem State.clearCause_stored (s : State) : (s.clearCause).stored = s.stored := rfl

@[simp] theorem State.clearCause_tick (s : State) : (s.clearCause).tick = s.tick := rfl

@[simp] theorem State.clearCause_reg (s : State) (r : RegNum) : (s.clearCause).reg r = s.reg r := rfl

@[simp] theorem State.clearCause_freg (s : State) (r : FRegNum) : (s.clearCause).freg r = s.freg r := rfl

@[simp] theorem State.clearCause_t (s : State) : (s.clearCause).t = s.t := rfl

@[simp] theorem State.clearCause_sBit (s : State) : (s.clearCause).sBit = s.sBit := rfl

@[simp] theorem State.clearCause_q (s : State) : (s.clearCause).q = s.q := rfl

@[simp] theorem State.clearCause_m (s : State) : (s.clearCause).m = s.m := rfl

@[simp] theorem State.clearCause_imask (s : State) : (s.clearCause).imask = s.imask := rfl

@[simp] theorem State.clearCause_mac (s : State) : (s.clearCause).mac = s.mac := rfl

@[simp] theorem State.clearCause_nextPc (s : State) : (s.clearCause).nextPc = s.nextPc := rfl

@[simp] theorem State.clearCause_pcOperand (s : State) : (s.clearCause).pcOperand = s.pcOperand := rfl

@[simp] theorem State.clearCause_kindAt (s : State) (a : Word) : (s.clearCause).kindAt a = s.kindAt a := rfl

@[simp] theorem State.clearCause_accessError (s : State) (kind : AccessKind) (width : Nat) (a : Word) : (s.clearCause).accessError kind width a = s.accessError kind width a := rfl

@[simp] theorem State.clearCause_byteAt (s : State) (k : Nat) (a : Word) : (s.clearCause).byteAt k a = s.byteAt k a := rfl

@[simp] theorem State.clearCause_halfAt (s : State) (k : Nat) (a : Word) : (s.clearCause).halfAt k a = s.halfAt k a := rfl

@[simp] theorem State.clearCause_longAt (s : State) (k : Nat) (a : Word) : (s.clearCause).longAt k a = s.longAt k a := rfl

@[simp] theorem State.clearCause_loadByte (s : State) (k : Nat) (a : Word) : (s.clearCause).loadByte k a = s.loadByte k a := rfl

@[simp] theorem State.clearCause_loadHalf (s : State) (k : Nat) (a : Word) : (s.clearCause).loadHalf k a = s.loadHalf k a := rfl

@[simp] theorem State.clearCause_loadLong (s : State) (k : Nat) (a : Word) : (s.clearCause).loadLong k a = s.loadLong k a := rfl

@[simp] theorem State.clearCause_vectorAddr (s : State) (v : BitVec 8) : (s.clearCause).vectorAddr v = s.vectorAddr v := rfl

@[simp] theorem State.clearCause_stackedPc (s : State) (p : StackedPcPlain) (d : StackedPcSlot) : (s.clearCause).stackedPc p d = s.stackedPc p d := rfl

/-! ### setInvalid -/

@[simp] theorem State.setInvalid_regs (s : State) : (s.setInvalid).regs = s.regs := rfl

@[simp] theorem State.setInvalid_pc (s : State) : (s.setInvalid).pc = s.pc := rfl

@[simp] theorem State.setInvalid_sr (s : State) : (s.setInvalid).sr = s.sr := rfl

@[simp] theorem State.setInvalid_gbr (s : State) : (s.setInvalid).gbr = s.gbr := rfl

@[simp] theorem State.setInvalid_vbr (s : State) : (s.setInvalid).vbr = s.vbr := rfl

@[simp] theorem State.setInvalid_mach (s : State) : (s.setInvalid).mach = s.mach := rfl

@[simp] theorem State.setInvalid_macl (s : State) : (s.setInvalid).macl = s.macl := rfl

@[simp] theorem State.setInvalid_pr (s : State) : (s.setInvalid).pr = s.pr := rfl

@[simp] theorem State.setInvalid_fregs (s : State) : (s.setInvalid).fregs = s.fregs := rfl

@[simp] theorem State.setInvalid_fpul (s : State) : (s.setInvalid).fpul = s.fpul := rfl

@[simp] theorem State.setInvalid_fpscr (s : State) : (s.setInvalid).fpscr = setBit (setBit s.fpscr 16 true) 6 true := rfl

@[simp] theorem State.setInvalid_mem (s : State) : (s.setInvalid).mem = s.mem := rfl

@[simp] theorem State.setInvalid_slot (s : State) : (s.setInvalid).slot = s.slot := rfl

@[simp] theorem State.setInvalid_inhibit (s : State) : (s.setInvalid).inhibit = s.inhibit := rfl

@[simp] theorem State.setInvalid_proc (s : State) : (s.setInvalid).proc = s.proc := rfl

@[simp] theorem State.setInvalid_fpuStopped (s : State) : (s.setInvalid).fpuStopped = s.fpuStopped := rfl

@[simp] theorem State.setInvalid_params (s : State) : (s.setInvalid).params = s.params := rfl

@[simp] theorem State.setInvalid_inputs (s : State) : (s.setInvalid).inputs = s.inputs := rfl

@[simp] theorem State.setInvalid_stored (s : State) : (s.setInvalid).stored = s.stored := rfl

@[simp] theorem State.setInvalid_tick (s : State) : (s.setInvalid).tick = s.tick := rfl

@[simp] theorem State.setInvalid_reg (s : State) (r : RegNum) : (s.setInvalid).reg r = s.reg r := rfl

@[simp] theorem State.setInvalid_freg (s : State) (r : FRegNum) : (s.setInvalid).freg r = s.freg r := rfl

@[simp] theorem State.setInvalid_t (s : State) : (s.setInvalid).t = s.t := rfl

@[simp] theorem State.setInvalid_sBit (s : State) : (s.setInvalid).sBit = s.sBit := rfl

@[simp] theorem State.setInvalid_q (s : State) : (s.setInvalid).q = s.q := rfl

@[simp] theorem State.setInvalid_m (s : State) : (s.setInvalid).m = s.m := rfl

@[simp] theorem State.setInvalid_imask (s : State) : (s.setInvalid).imask = s.imask := rfl

@[simp] theorem State.setInvalid_mac (s : State) : (s.setInvalid).mac = s.mac := rfl

@[simp] theorem State.setInvalid_nextPc (s : State) : (s.setInvalid).nextPc = s.nextPc := rfl

@[simp] theorem State.setInvalid_pcOperand (s : State) : (s.setInvalid).pcOperand = s.pcOperand := rfl

@[simp] theorem State.setInvalid_kindAt (s : State) (a : Word) : (s.setInvalid).kindAt a = s.kindAt a := rfl

@[simp] theorem State.setInvalid_accessError (s : State) (kind : AccessKind) (width : Nat) (a : Word) : (s.setInvalid).accessError kind width a = s.accessError kind width a := rfl

@[simp] theorem State.setInvalid_byteAt (s : State) (k : Nat) (a : Word) : (s.setInvalid).byteAt k a = s.byteAt k a := rfl

@[simp] theorem State.setInvalid_halfAt (s : State) (k : Nat) (a : Word) : (s.setInvalid).halfAt k a = s.halfAt k a := rfl

@[simp] theorem State.setInvalid_longAt (s : State) (k : Nat) (a : Word) : (s.setInvalid).longAt k a = s.longAt k a := rfl

@[simp] theorem State.setInvalid_loadByte (s : State) (k : Nat) (a : Word) : (s.setInvalid).loadByte k a = s.loadByte k a := rfl

@[simp] theorem State.setInvalid_loadHalf (s : State) (k : Nat) (a : Word) : (s.setInvalid).loadHalf k a = s.loadHalf k a := rfl

@[simp] theorem State.setInvalid_loadLong (s : State) (k : Nat) (a : Word) : (s.setInvalid).loadLong k a = s.loadLong k a := rfl

@[simp] theorem State.setInvalid_vectorAddr (s : State) (v : BitVec 8) : (s.setInvalid).vectorAddr v = s.vectorAddr v := rfl

@[simp] theorem State.setInvalid_stackedPc (s : State) (p : StackedPcPlain) (d : StackedPcSlot) : (s.setInvalid).stackedPc p d = s.stackedPc p d := rfl

/-! ### setDivZero -/

@[simp] theorem State.setDivZero_regs (s : State) : (s.setDivZero).regs = s.regs := rfl

@[simp] theorem State.setDivZero_pc (s : State) : (s.setDivZero).pc = s.pc := rfl

@[simp] theorem State.setDivZero_sr (s : State) : (s.setDivZero).sr = s.sr := rfl

@[simp] theorem State.setDivZero_gbr (s : State) : (s.setDivZero).gbr = s.gbr := rfl

@[simp] theorem State.setDivZero_vbr (s : State) : (s.setDivZero).vbr = s.vbr := rfl

@[simp] theorem State.setDivZero_mach (s : State) : (s.setDivZero).mach = s.mach := rfl

@[simp] theorem State.setDivZero_macl (s : State) : (s.setDivZero).macl = s.macl := rfl

@[simp] theorem State.setDivZero_pr (s : State) : (s.setDivZero).pr = s.pr := rfl

@[simp] theorem State.setDivZero_fregs (s : State) : (s.setDivZero).fregs = s.fregs := rfl

@[simp] theorem State.setDivZero_fpul (s : State) : (s.setDivZero).fpul = s.fpul := rfl

@[simp] theorem State.setDivZero_fpscr (s : State) : (s.setDivZero).fpscr = setBit (setBit s.fpscr 15 true) 5 true := rfl

@[simp] theorem State.setDivZero_mem (s : State) : (s.setDivZero).mem = s.mem := rfl

@[simp] theorem State.setDivZero_slot (s : State) : (s.setDivZero).slot = s.slot := rfl

@[simp] theorem State.setDivZero_inhibit (s : State) : (s.setDivZero).inhibit = s.inhibit := rfl

@[simp] theorem State.setDivZero_proc (s : State) : (s.setDivZero).proc = s.proc := rfl

@[simp] theorem State.setDivZero_fpuStopped (s : State) : (s.setDivZero).fpuStopped = s.fpuStopped := rfl

@[simp] theorem State.setDivZero_params (s : State) : (s.setDivZero).params = s.params := rfl

@[simp] theorem State.setDivZero_inputs (s : State) : (s.setDivZero).inputs = s.inputs := rfl

@[simp] theorem State.setDivZero_stored (s : State) : (s.setDivZero).stored = s.stored := rfl

@[simp] theorem State.setDivZero_tick (s : State) : (s.setDivZero).tick = s.tick := rfl

@[simp] theorem State.setDivZero_reg (s : State) (r : RegNum) : (s.setDivZero).reg r = s.reg r := rfl

@[simp] theorem State.setDivZero_freg (s : State) (r : FRegNum) : (s.setDivZero).freg r = s.freg r := rfl

@[simp] theorem State.setDivZero_t (s : State) : (s.setDivZero).t = s.t := rfl

@[simp] theorem State.setDivZero_sBit (s : State) : (s.setDivZero).sBit = s.sBit := rfl

@[simp] theorem State.setDivZero_q (s : State) : (s.setDivZero).q = s.q := rfl

@[simp] theorem State.setDivZero_m (s : State) : (s.setDivZero).m = s.m := rfl

@[simp] theorem State.setDivZero_imask (s : State) : (s.setDivZero).imask = s.imask := rfl

@[simp] theorem State.setDivZero_mac (s : State) : (s.setDivZero).mac = s.mac := rfl

@[simp] theorem State.setDivZero_nextPc (s : State) : (s.setDivZero).nextPc = s.nextPc := rfl

@[simp] theorem State.setDivZero_pcOperand (s : State) : (s.setDivZero).pcOperand = s.pcOperand := rfl

@[simp] theorem State.setDivZero_kindAt (s : State) (a : Word) : (s.setDivZero).kindAt a = s.kindAt a := rfl

@[simp] theorem State.setDivZero_accessError (s : State) (kind : AccessKind) (width : Nat) (a : Word) : (s.setDivZero).accessError kind width a = s.accessError kind width a := rfl

@[simp] theorem State.setDivZero_byteAt (s : State) (k : Nat) (a : Word) : (s.setDivZero).byteAt k a = s.byteAt k a := rfl

@[simp] theorem State.setDivZero_halfAt (s : State) (k : Nat) (a : Word) : (s.setDivZero).halfAt k a = s.halfAt k a := rfl

@[simp] theorem State.setDivZero_longAt (s : State) (k : Nat) (a : Word) : (s.setDivZero).longAt k a = s.longAt k a := rfl

@[simp] theorem State.setDivZero_loadByte (s : State) (k : Nat) (a : Word) : (s.setDivZero).loadByte k a = s.loadByte k a := rfl

@[simp] theorem State.setDivZero_loadHalf (s : State) (k : Nat) (a : Word) : (s.setDivZero).loadHalf k a = s.loadHalf k a := rfl

@[simp] theorem State.setDivZero_loadLong (s : State) (k : Nat) (a : Word) : (s.setDivZero).loadLong k a = s.loadLong k a := rfl

@[simp] theorem State.setDivZero_vectorAddr (s : State) (v : BitVec 8) : (s.setDivZero).vectorAddr v = s.vectorAddr v := rfl

@[simp] theorem State.setDivZero_stackedPc (s : State) (p : StackedPcPlain) (d : StackedPcSlot) : (s.setDivZero).stackedPc p d = s.stackedPc p d := rfl

/-! ### setMac -/

@[simp] theorem State.setMac_regs (s : State) (v : BitVec 64) : (s.setMac v).regs = s.regs := rfl

@[simp] theorem State.setMac_pc (s : State) (v : BitVec 64) : (s.setMac v).pc = s.pc := rfl

@[simp] theorem State.setMac_sr (s : State) (v : BitVec 64) : (s.setMac v).sr = s.sr := rfl

@[simp] theorem State.setMac_gbr (s : State) (v : BitVec 64) : (s.setMac v).gbr = s.gbr := rfl

@[simp] theorem State.setMac_vbr (s : State) (v : BitVec 64) : (s.setMac v).vbr = s.vbr := rfl

@[simp] theorem State.setMac_mach (s : State) (v : BitVec 64) : (s.setMac v).mach = v.extractLsb' 32 32 := rfl

@[simp] theorem State.setMac_macl (s : State) (v : BitVec 64) : (s.setMac v).macl = v.extractLsb' 0 32 := rfl

@[simp] theorem State.setMac_pr (s : State) (v : BitVec 64) : (s.setMac v).pr = s.pr := rfl

@[simp] theorem State.setMac_fregs (s : State) (v : BitVec 64) : (s.setMac v).fregs = s.fregs := rfl

@[simp] theorem State.setMac_fpul (s : State) (v : BitVec 64) : (s.setMac v).fpul = s.fpul := rfl

@[simp] theorem State.setMac_fpscr (s : State) (v : BitVec 64) : (s.setMac v).fpscr = s.fpscr := rfl

@[simp] theorem State.setMac_mem (s : State) (v : BitVec 64) : (s.setMac v).mem = s.mem := rfl

@[simp] theorem State.setMac_slot (s : State) (v : BitVec 64) : (s.setMac v).slot = s.slot := rfl

@[simp] theorem State.setMac_inhibit (s : State) (v : BitVec 64) : (s.setMac v).inhibit = s.inhibit := rfl

@[simp] theorem State.setMac_proc (s : State) (v : BitVec 64) : (s.setMac v).proc = s.proc := rfl

@[simp] theorem State.setMac_fpuStopped (s : State) (v : BitVec 64) : (s.setMac v).fpuStopped = s.fpuStopped := rfl

@[simp] theorem State.setMac_params (s : State) (v : BitVec 64) : (s.setMac v).params = s.params := rfl

@[simp] theorem State.setMac_inputs (s : State) (v : BitVec 64) : (s.setMac v).inputs = s.inputs := rfl

@[simp] theorem State.setMac_stored (s : State) (v : BitVec 64) : (s.setMac v).stored = s.stored := rfl

@[simp] theorem State.setMac_tick (s : State) (v : BitVec 64) : (s.setMac v).tick = s.tick := rfl

@[simp] theorem State.setMac_reg (s : State) (v : BitVec 64) (r : RegNum) : (s.setMac v).reg r = s.reg r := rfl

@[simp] theorem State.setMac_freg (s : State) (v : BitVec 64) (r : FRegNum) : (s.setMac v).freg r = s.freg r := rfl

@[simp] theorem State.setMac_t (s : State) (v : BitVec 64) : (s.setMac v).t = s.t := rfl

@[simp] theorem State.setMac_sBit (s : State) (v : BitVec 64) : (s.setMac v).sBit = s.sBit := rfl

@[simp] theorem State.setMac_q (s : State) (v : BitVec 64) : (s.setMac v).q = s.q := rfl

@[simp] theorem State.setMac_m (s : State) (v : BitVec 64) : (s.setMac v).m = s.m := rfl

@[simp] theorem State.setMac_imask (s : State) (v : BitVec 64) : (s.setMac v).imask = s.imask := rfl

@[simp] theorem State.setMac_ev (s : State) (v : BitVec 64) : (s.setMac v).ev = s.ev := rfl

@[simp] theorem State.setMac_ez (s : State) (v : BitVec 64) : (s.setMac v).ez = s.ez := rfl

@[simp] theorem State.setMac_nextPc (s : State) (v : BitVec 64) : (s.setMac v).nextPc = s.nextPc := rfl

@[simp] theorem State.setMac_pcOperand (s : State) (v : BitVec 64) : (s.setMac v).pcOperand = s.pcOperand := rfl

@[simp] theorem State.setMac_kindAt (s : State) (v : BitVec 64) (a : Word) : (s.setMac v).kindAt a = s.kindAt a := rfl

@[simp] theorem State.setMac_accessError (s : State) (v : BitVec 64) (kind : AccessKind) (width : Nat) (a : Word) : (s.setMac v).accessError kind width a = s.accessError kind width a := rfl

@[simp] theorem State.setMac_byteAt (s : State) (v : BitVec 64) (k : Nat) (a : Word) : (s.setMac v).byteAt k a = s.byteAt k a := rfl

@[simp] theorem State.setMac_halfAt (s : State) (v : BitVec 64) (k : Nat) (a : Word) : (s.setMac v).halfAt k a = s.halfAt k a := rfl

@[simp] theorem State.setMac_longAt (s : State) (v : BitVec 64) (k : Nat) (a : Word) : (s.setMac v).longAt k a = s.longAt k a := rfl

@[simp] theorem State.setMac_loadByte (s : State) (v : BitVec 64) (k : Nat) (a : Word) : (s.setMac v).loadByte k a = s.loadByte k a := rfl

@[simp] theorem State.setMac_loadHalf (s : State) (v : BitVec 64) (k : Nat) (a : Word) : (s.setMac v).loadHalf k a = s.loadHalf k a := rfl

@[simp] theorem State.setMac_loadLong (s : State) (v : BitVec 64) (k : Nat) (a : Word) : (s.setMac v).loadLong k a = s.loadLong k a := rfl

@[simp] theorem State.setMac_vectorAddr (s : State) (v : BitVec 64) (vec : BitVec 8) : (s.setMac v).vectorAddr vec = s.vectorAddr vec := rfl

@[simp] theorem State.setMac_stackedPc (s : State) (v : BitVec 64) (p : StackedPcPlain) (d : StackedPcSlot) : (s.setMac v).stackedPc p d = s.stackedPc p d := rfl

/-! ### linkPr -/

@[simp] theorem State.linkPr_regs (s : State) : (s.linkPr).regs = s.regs := rfl

@[simp] theorem State.linkPr_pc (s : State) : (s.linkPr).pc = s.pc := rfl

@[simp] theorem State.linkPr_sr (s : State) : (s.linkPr).sr = s.sr := rfl

@[simp] theorem State.linkPr_gbr (s : State) : (s.linkPr).gbr = s.gbr := rfl

@[simp] theorem State.linkPr_vbr (s : State) : (s.linkPr).vbr = s.vbr := rfl

@[simp] theorem State.linkPr_mach (s : State) : (s.linkPr).mach = s.mach := rfl

@[simp] theorem State.linkPr_macl (s : State) : (s.linkPr).macl = s.macl := rfl

@[simp] theorem State.linkPr_pr (s : State) : (s.linkPr).pr = s.pc + 4 := rfl

@[simp] theorem State.linkPr_fregs (s : State) : (s.linkPr).fregs = s.fregs := rfl

@[simp] theorem State.linkPr_fpul (s : State) : (s.linkPr).fpul = s.fpul := rfl

@[simp] theorem State.linkPr_fpscr (s : State) : (s.linkPr).fpscr = s.fpscr := rfl

@[simp] theorem State.linkPr_mem (s : State) : (s.linkPr).mem = s.mem := rfl

@[simp] theorem State.linkPr_slot (s : State) : (s.linkPr).slot = s.slot := rfl

@[simp] theorem State.linkPr_inhibit (s : State) : (s.linkPr).inhibit = s.inhibit := rfl

@[simp] theorem State.linkPr_proc (s : State) : (s.linkPr).proc = s.proc := rfl

@[simp] theorem State.linkPr_fpuStopped (s : State) : (s.linkPr).fpuStopped = s.fpuStopped := rfl

@[simp] theorem State.linkPr_params (s : State) : (s.linkPr).params = s.params := rfl

@[simp] theorem State.linkPr_inputs (s : State) : (s.linkPr).inputs = s.inputs := rfl

@[simp] theorem State.linkPr_stored (s : State) : (s.linkPr).stored = s.stored := rfl

@[simp] theorem State.linkPr_tick (s : State) : (s.linkPr).tick = s.tick := rfl

@[simp] theorem State.linkPr_reg (s : State) (r : RegNum) : (s.linkPr).reg r = s.reg r := rfl

@[simp] theorem State.linkPr_freg (s : State) (r : FRegNum) : (s.linkPr).freg r = s.freg r := rfl

@[simp] theorem State.linkPr_t (s : State) : (s.linkPr).t = s.t := rfl

@[simp] theorem State.linkPr_sBit (s : State) : (s.linkPr).sBit = s.sBit := rfl

@[simp] theorem State.linkPr_q (s : State) : (s.linkPr).q = s.q := rfl

@[simp] theorem State.linkPr_m (s : State) : (s.linkPr).m = s.m := rfl

@[simp] theorem State.linkPr_imask (s : State) : (s.linkPr).imask = s.imask := rfl

@[simp] theorem State.linkPr_ev (s : State) : (s.linkPr).ev = s.ev := rfl

@[simp] theorem State.linkPr_ez (s : State) : (s.linkPr).ez = s.ez := rfl

@[simp] theorem State.linkPr_mac (s : State) : (s.linkPr).mac = s.mac := rfl

@[simp] theorem State.linkPr_nextPc (s : State) : (s.linkPr).nextPc = s.nextPc := rfl

@[simp] theorem State.linkPr_pcOperand (s : State) : (s.linkPr).pcOperand = s.pcOperand := rfl

@[simp] theorem State.linkPr_kindAt (s : State) (a : Word) : (s.linkPr).kindAt a = s.kindAt a := rfl

@[simp] theorem State.linkPr_accessError (s : State) (kind : AccessKind) (width : Nat) (a : Word) : (s.linkPr).accessError kind width a = s.accessError kind width a := rfl

@[simp] theorem State.linkPr_byteAt (s : State) (k : Nat) (a : Word) : (s.linkPr).byteAt k a = s.byteAt k a := rfl

@[simp] theorem State.linkPr_halfAt (s : State) (k : Nat) (a : Word) : (s.linkPr).halfAt k a = s.halfAt k a := rfl

@[simp] theorem State.linkPr_longAt (s : State) (k : Nat) (a : Word) : (s.linkPr).longAt k a = s.longAt k a := rfl

@[simp] theorem State.linkPr_loadByte (s : State) (k : Nat) (a : Word) : (s.linkPr).loadByte k a = s.loadByte k a := rfl

@[simp] theorem State.linkPr_loadHalf (s : State) (k : Nat) (a : Word) : (s.linkPr).loadHalf k a = s.loadHalf k a := rfl

@[simp] theorem State.linkPr_loadLong (s : State) (k : Nat) (a : Word) : (s.linkPr).loadLong k a = s.loadLong k a := rfl

@[simp] theorem State.linkPr_vectorAddr (s : State) (v : BitVec 8) : (s.linkPr).vectorAddr v = s.vectorAddr v := rfl

@[simp] theorem State.linkPr_stackedPc (s : State) (p : StackedPcPlain) (d : StackedPcSlot) : (s.linkPr).stackedPc p d = s.stackedPc p d := rfl

/-! ### writeGbr -/

@[simp] theorem State.writeGbr_regs (s : State) (v : Word) : (s.writeGbr v).regs = s.regs := rfl

@[simp] theorem State.writeGbr_pc (s : State) (v : Word) : (s.writeGbr v).pc = s.pc := rfl

@[simp] theorem State.writeGbr_sr (s : State) (v : Word) : (s.writeGbr v).sr = s.sr := rfl

@[simp] theorem State.writeGbr_gbr (s : State) (v : Word) : (s.writeGbr v).gbr = v := rfl

@[simp] theorem State.writeGbr_vbr (s : State) (v : Word) : (s.writeGbr v).vbr = s.vbr := rfl

@[simp] theorem State.writeGbr_mach (s : State) (v : Word) : (s.writeGbr v).mach = s.mach := rfl

@[simp] theorem State.writeGbr_macl (s : State) (v : Word) : (s.writeGbr v).macl = s.macl := rfl

@[simp] theorem State.writeGbr_pr (s : State) (v : Word) : (s.writeGbr v).pr = s.pr := rfl

@[simp] theorem State.writeGbr_fregs (s : State) (v : Word) : (s.writeGbr v).fregs = s.fregs := rfl

@[simp] theorem State.writeGbr_fpul (s : State) (v : Word) : (s.writeGbr v).fpul = s.fpul := rfl

@[simp] theorem State.writeGbr_fpscr (s : State) (v : Word) : (s.writeGbr v).fpscr = s.fpscr := rfl

@[simp] theorem State.writeGbr_mem (s : State) (v : Word) : (s.writeGbr v).mem = s.mem := rfl

@[simp] theorem State.writeGbr_slot (s : State) (v : Word) : (s.writeGbr v).slot = s.slot := rfl

@[simp] theorem State.writeGbr_inhibit (s : State) (v : Word) : (s.writeGbr v).inhibit = s.inhibit := rfl

@[simp] theorem State.writeGbr_proc (s : State) (v : Word) : (s.writeGbr v).proc = s.proc := rfl

@[simp] theorem State.writeGbr_fpuStopped (s : State) (v : Word) : (s.writeGbr v).fpuStopped = s.fpuStopped := rfl

@[simp] theorem State.writeGbr_params (s : State) (v : Word) : (s.writeGbr v).params = s.params := rfl

@[simp] theorem State.writeGbr_inputs (s : State) (v : Word) : (s.writeGbr v).inputs = s.inputs := rfl

@[simp] theorem State.writeGbr_stored (s : State) (v : Word) : (s.writeGbr v).stored = s.stored := rfl

@[simp] theorem State.writeGbr_tick (s : State) (v : Word) : (s.writeGbr v).tick = s.tick := rfl

@[simp] theorem State.writeGbr_reg (s : State) (v : Word) (r : RegNum) : (s.writeGbr v).reg r = s.reg r := rfl

@[simp] theorem State.writeGbr_freg (s : State) (v : Word) (r : FRegNum) : (s.writeGbr v).freg r = s.freg r := rfl

@[simp] theorem State.writeGbr_t (s : State) (v : Word) : (s.writeGbr v).t = s.t := rfl

@[simp] theorem State.writeGbr_sBit (s : State) (v : Word) : (s.writeGbr v).sBit = s.sBit := rfl

@[simp] theorem State.writeGbr_q (s : State) (v : Word) : (s.writeGbr v).q = s.q := rfl

@[simp] theorem State.writeGbr_m (s : State) (v : Word) : (s.writeGbr v).m = s.m := rfl

@[simp] theorem State.writeGbr_imask (s : State) (v : Word) : (s.writeGbr v).imask = s.imask := rfl

@[simp] theorem State.writeGbr_ev (s : State) (v : Word) : (s.writeGbr v).ev = s.ev := rfl

@[simp] theorem State.writeGbr_ez (s : State) (v : Word) : (s.writeGbr v).ez = s.ez := rfl

@[simp] theorem State.writeGbr_mac (s : State) (v : Word) : (s.writeGbr v).mac = s.mac := rfl

@[simp] theorem State.writeGbr_nextPc (s : State) (v : Word) : (s.writeGbr v).nextPc = s.nextPc := rfl

@[simp] theorem State.writeGbr_pcOperand (s : State) (v : Word) : (s.writeGbr v).pcOperand = s.pcOperand := rfl

@[simp] theorem State.writeGbr_kindAt (s : State) (v : Word) (a : Word) : (s.writeGbr v).kindAt a = s.kindAt a := rfl

@[simp] theorem State.writeGbr_accessError (s : State) (v : Word) (kind : AccessKind) (width : Nat) (a : Word) : (s.writeGbr v).accessError kind width a = s.accessError kind width a := rfl

@[simp] theorem State.writeGbr_byteAt (s : State) (v : Word) (k : Nat) (a : Word) : (s.writeGbr v).byteAt k a = s.byteAt k a := rfl

@[simp] theorem State.writeGbr_halfAt (s : State) (v : Word) (k : Nat) (a : Word) : (s.writeGbr v).halfAt k a = s.halfAt k a := rfl

@[simp] theorem State.writeGbr_longAt (s : State) (v : Word) (k : Nat) (a : Word) : (s.writeGbr v).longAt k a = s.longAt k a := rfl

@[simp] theorem State.writeGbr_loadByte (s : State) (v : Word) (k : Nat) (a : Word) : (s.writeGbr v).loadByte k a = s.loadByte k a := rfl

@[simp] theorem State.writeGbr_loadHalf (s : State) (v : Word) (k : Nat) (a : Word) : (s.writeGbr v).loadHalf k a = s.loadHalf k a := rfl

@[simp] theorem State.writeGbr_loadLong (s : State) (v : Word) (k : Nat) (a : Word) : (s.writeGbr v).loadLong k a = s.loadLong k a := rfl

@[simp] theorem State.writeGbr_vectorAddr (s : State) (v : Word) (vec : BitVec 8) : (s.writeGbr v).vectorAddr vec = s.vectorAddr vec := rfl

@[simp] theorem State.writeGbr_stackedPc (s : State) (v : Word) (p : StackedPcPlain) (d : StackedPcSlot) : (s.writeGbr v).stackedPc p d = s.stackedPc p d := rfl

/-! ### writeVbr -/

@[simp] theorem State.writeVbr_regs (s : State) (v : Word) : (s.writeVbr v).regs = s.regs := rfl

@[simp] theorem State.writeVbr_pc (s : State) (v : Word) : (s.writeVbr v).pc = s.pc := rfl

@[simp] theorem State.writeVbr_sr (s : State) (v : Word) : (s.writeVbr v).sr = s.sr := rfl

@[simp] theorem State.writeVbr_gbr (s : State) (v : Word) : (s.writeVbr v).gbr = s.gbr := rfl

@[simp] theorem State.writeVbr_vbr (s : State) (v : Word) : (s.writeVbr v).vbr = v := rfl

@[simp] theorem State.writeVbr_mach (s : State) (v : Word) : (s.writeVbr v).mach = s.mach := rfl

@[simp] theorem State.writeVbr_macl (s : State) (v : Word) : (s.writeVbr v).macl = s.macl := rfl

@[simp] theorem State.writeVbr_pr (s : State) (v : Word) : (s.writeVbr v).pr = s.pr := rfl

@[simp] theorem State.writeVbr_fregs (s : State) (v : Word) : (s.writeVbr v).fregs = s.fregs := rfl

@[simp] theorem State.writeVbr_fpul (s : State) (v : Word) : (s.writeVbr v).fpul = s.fpul := rfl

@[simp] theorem State.writeVbr_fpscr (s : State) (v : Word) : (s.writeVbr v).fpscr = s.fpscr := rfl

@[simp] theorem State.writeVbr_mem (s : State) (v : Word) : (s.writeVbr v).mem = s.mem := rfl

@[simp] theorem State.writeVbr_slot (s : State) (v : Word) : (s.writeVbr v).slot = s.slot := rfl

@[simp] theorem State.writeVbr_inhibit (s : State) (v : Word) : (s.writeVbr v).inhibit = s.inhibit := rfl

@[simp] theorem State.writeVbr_proc (s : State) (v : Word) : (s.writeVbr v).proc = s.proc := rfl

@[simp] theorem State.writeVbr_fpuStopped (s : State) (v : Word) : (s.writeVbr v).fpuStopped = s.fpuStopped := rfl

@[simp] theorem State.writeVbr_params (s : State) (v : Word) : (s.writeVbr v).params = s.params := rfl

@[simp] theorem State.writeVbr_inputs (s : State) (v : Word) : (s.writeVbr v).inputs = s.inputs := rfl

@[simp] theorem State.writeVbr_stored (s : State) (v : Word) : (s.writeVbr v).stored = s.stored := rfl

@[simp] theorem State.writeVbr_tick (s : State) (v : Word) : (s.writeVbr v).tick = s.tick := rfl

@[simp] theorem State.writeVbr_reg (s : State) (v : Word) (r : RegNum) : (s.writeVbr v).reg r = s.reg r := rfl

@[simp] theorem State.writeVbr_freg (s : State) (v : Word) (r : FRegNum) : (s.writeVbr v).freg r = s.freg r := rfl

@[simp] theorem State.writeVbr_t (s : State) (v : Word) : (s.writeVbr v).t = s.t := rfl

@[simp] theorem State.writeVbr_sBit (s : State) (v : Word) : (s.writeVbr v).sBit = s.sBit := rfl

@[simp] theorem State.writeVbr_q (s : State) (v : Word) : (s.writeVbr v).q = s.q := rfl

@[simp] theorem State.writeVbr_m (s : State) (v : Word) : (s.writeVbr v).m = s.m := rfl

@[simp] theorem State.writeVbr_imask (s : State) (v : Word) : (s.writeVbr v).imask = s.imask := rfl

@[simp] theorem State.writeVbr_ev (s : State) (v : Word) : (s.writeVbr v).ev = s.ev := rfl

@[simp] theorem State.writeVbr_ez (s : State) (v : Word) : (s.writeVbr v).ez = s.ez := rfl

@[simp] theorem State.writeVbr_mac (s : State) (v : Word) : (s.writeVbr v).mac = s.mac := rfl

@[simp] theorem State.writeVbr_nextPc (s : State) (v : Word) : (s.writeVbr v).nextPc = s.nextPc := rfl

@[simp] theorem State.writeVbr_pcOperand (s : State) (v : Word) : (s.writeVbr v).pcOperand = s.pcOperand := rfl

@[simp] theorem State.writeVbr_kindAt (s : State) (v : Word) (a : Word) : (s.writeVbr v).kindAt a = s.kindAt a := rfl

@[simp] theorem State.writeVbr_accessError (s : State) (v : Word) (kind : AccessKind) (width : Nat) (a : Word) : (s.writeVbr v).accessError kind width a = s.accessError kind width a := rfl

@[simp] theorem State.writeVbr_byteAt (s : State) (v : Word) (k : Nat) (a : Word) : (s.writeVbr v).byteAt k a = s.byteAt k a := rfl

@[simp] theorem State.writeVbr_halfAt (s : State) (v : Word) (k : Nat) (a : Word) : (s.writeVbr v).halfAt k a = s.halfAt k a := rfl

@[simp] theorem State.writeVbr_longAt (s : State) (v : Word) (k : Nat) (a : Word) : (s.writeVbr v).longAt k a = s.longAt k a := rfl

@[simp] theorem State.writeVbr_loadByte (s : State) (v : Word) (k : Nat) (a : Word) : (s.writeVbr v).loadByte k a = s.loadByte k a := rfl

@[simp] theorem State.writeVbr_loadHalf (s : State) (v : Word) (k : Nat) (a : Word) : (s.writeVbr v).loadHalf k a = s.loadHalf k a := rfl

@[simp] theorem State.writeVbr_loadLong (s : State) (v : Word) (k : Nat) (a : Word) : (s.writeVbr v).loadLong k a = s.loadLong k a := rfl

@[simp] theorem State.writeVbr_stackedPc (s : State) (v : Word) (p : StackedPcPlain) (d : StackedPcSlot) : (s.writeVbr v).stackedPc p d = s.stackedPc p d := rfl

/-! ### writeMach -/

@[simp] theorem State.writeMach_regs (s : State) (v : Word) : (s.writeMach v).regs = s.regs := rfl

@[simp] theorem State.writeMach_pc (s : State) (v : Word) : (s.writeMach v).pc = s.pc := rfl

@[simp] theorem State.writeMach_sr (s : State) (v : Word) : (s.writeMach v).sr = s.sr := rfl

@[simp] theorem State.writeMach_gbr (s : State) (v : Word) : (s.writeMach v).gbr = s.gbr := rfl

@[simp] theorem State.writeMach_vbr (s : State) (v : Word) : (s.writeMach v).vbr = s.vbr := rfl

@[simp] theorem State.writeMach_mach (s : State) (v : Word) : (s.writeMach v).mach = v := rfl

@[simp] theorem State.writeMach_macl (s : State) (v : Word) : (s.writeMach v).macl = s.macl := rfl

@[simp] theorem State.writeMach_pr (s : State) (v : Word) : (s.writeMach v).pr = s.pr := rfl

@[simp] theorem State.writeMach_fregs (s : State) (v : Word) : (s.writeMach v).fregs = s.fregs := rfl

@[simp] theorem State.writeMach_fpul (s : State) (v : Word) : (s.writeMach v).fpul = s.fpul := rfl

@[simp] theorem State.writeMach_fpscr (s : State) (v : Word) : (s.writeMach v).fpscr = s.fpscr := rfl

@[simp] theorem State.writeMach_mem (s : State) (v : Word) : (s.writeMach v).mem = s.mem := rfl

@[simp] theorem State.writeMach_slot (s : State) (v : Word) : (s.writeMach v).slot = s.slot := rfl

@[simp] theorem State.writeMach_inhibit (s : State) (v : Word) : (s.writeMach v).inhibit = s.inhibit := rfl

@[simp] theorem State.writeMach_proc (s : State) (v : Word) : (s.writeMach v).proc = s.proc := rfl

@[simp] theorem State.writeMach_fpuStopped (s : State) (v : Word) : (s.writeMach v).fpuStopped = s.fpuStopped := rfl

@[simp] theorem State.writeMach_params (s : State) (v : Word) : (s.writeMach v).params = s.params := rfl

@[simp] theorem State.writeMach_inputs (s : State) (v : Word) : (s.writeMach v).inputs = s.inputs := rfl

@[simp] theorem State.writeMach_stored (s : State) (v : Word) : (s.writeMach v).stored = s.stored := rfl

@[simp] theorem State.writeMach_tick (s : State) (v : Word) : (s.writeMach v).tick = s.tick := rfl

@[simp] theorem State.writeMach_reg (s : State) (v : Word) (r : RegNum) : (s.writeMach v).reg r = s.reg r := rfl

@[simp] theorem State.writeMach_freg (s : State) (v : Word) (r : FRegNum) : (s.writeMach v).freg r = s.freg r := rfl

@[simp] theorem State.writeMach_t (s : State) (v : Word) : (s.writeMach v).t = s.t := rfl

@[simp] theorem State.writeMach_sBit (s : State) (v : Word) : (s.writeMach v).sBit = s.sBit := rfl

@[simp] theorem State.writeMach_q (s : State) (v : Word) : (s.writeMach v).q = s.q := rfl

@[simp] theorem State.writeMach_m (s : State) (v : Word) : (s.writeMach v).m = s.m := rfl

@[simp] theorem State.writeMach_imask (s : State) (v : Word) : (s.writeMach v).imask = s.imask := rfl

@[simp] theorem State.writeMach_ev (s : State) (v : Word) : (s.writeMach v).ev = s.ev := rfl

@[simp] theorem State.writeMach_ez (s : State) (v : Word) : (s.writeMach v).ez = s.ez := rfl

@[simp] theorem State.writeMach_nextPc (s : State) (v : Word) : (s.writeMach v).nextPc = s.nextPc := rfl

@[simp] theorem State.writeMach_pcOperand (s : State) (v : Word) : (s.writeMach v).pcOperand = s.pcOperand := rfl

@[simp] theorem State.writeMach_kindAt (s : State) (v : Word) (a : Word) : (s.writeMach v).kindAt a = s.kindAt a := rfl

@[simp] theorem State.writeMach_accessError (s : State) (v : Word) (kind : AccessKind) (width : Nat) (a : Word) : (s.writeMach v).accessError kind width a = s.accessError kind width a := rfl

@[simp] theorem State.writeMach_byteAt (s : State) (v : Word) (k : Nat) (a : Word) : (s.writeMach v).byteAt k a = s.byteAt k a := rfl

@[simp] theorem State.writeMach_halfAt (s : State) (v : Word) (k : Nat) (a : Word) : (s.writeMach v).halfAt k a = s.halfAt k a := rfl

@[simp] theorem State.writeMach_longAt (s : State) (v : Word) (k : Nat) (a : Word) : (s.writeMach v).longAt k a = s.longAt k a := rfl

@[simp] theorem State.writeMach_loadByte (s : State) (v : Word) (k : Nat) (a : Word) : (s.writeMach v).loadByte k a = s.loadByte k a := rfl

@[simp] theorem State.writeMach_loadHalf (s : State) (v : Word) (k : Nat) (a : Word) : (s.writeMach v).loadHalf k a = s.loadHalf k a := rfl

@[simp] theorem State.writeMach_loadLong (s : State) (v : Word) (k : Nat) (a : Word) : (s.writeMach v).loadLong k a = s.loadLong k a := rfl

@[simp] theorem State.writeMach_vectorAddr (s : State) (v : Word) (vec : BitVec 8) : (s.writeMach v).vectorAddr vec = s.vectorAddr vec := rfl

@[simp] theorem State.writeMach_stackedPc (s : State) (v : Word) (p : StackedPcPlain) (d : StackedPcSlot) : (s.writeMach v).stackedPc p d = s.stackedPc p d := rfl

/-! ### writeMacl -/

@[simp] theorem State.writeMacl_regs (s : State) (v : Word) : (s.writeMacl v).regs = s.regs := rfl

@[simp] theorem State.writeMacl_pc (s : State) (v : Word) : (s.writeMacl v).pc = s.pc := rfl

@[simp] theorem State.writeMacl_sr (s : State) (v : Word) : (s.writeMacl v).sr = s.sr := rfl

@[simp] theorem State.writeMacl_gbr (s : State) (v : Word) : (s.writeMacl v).gbr = s.gbr := rfl

@[simp] theorem State.writeMacl_vbr (s : State) (v : Word) : (s.writeMacl v).vbr = s.vbr := rfl

@[simp] theorem State.writeMacl_mach (s : State) (v : Word) : (s.writeMacl v).mach = s.mach := rfl

@[simp] theorem State.writeMacl_macl (s : State) (v : Word) : (s.writeMacl v).macl = v := rfl

@[simp] theorem State.writeMacl_pr (s : State) (v : Word) : (s.writeMacl v).pr = s.pr := rfl

@[simp] theorem State.writeMacl_fregs (s : State) (v : Word) : (s.writeMacl v).fregs = s.fregs := rfl

@[simp] theorem State.writeMacl_fpul (s : State) (v : Word) : (s.writeMacl v).fpul = s.fpul := rfl

@[simp] theorem State.writeMacl_fpscr (s : State) (v : Word) : (s.writeMacl v).fpscr = s.fpscr := rfl

@[simp] theorem State.writeMacl_mem (s : State) (v : Word) : (s.writeMacl v).mem = s.mem := rfl

@[simp] theorem State.writeMacl_slot (s : State) (v : Word) : (s.writeMacl v).slot = s.slot := rfl

@[simp] theorem State.writeMacl_inhibit (s : State) (v : Word) : (s.writeMacl v).inhibit = s.inhibit := rfl

@[simp] theorem State.writeMacl_proc (s : State) (v : Word) : (s.writeMacl v).proc = s.proc := rfl

@[simp] theorem State.writeMacl_fpuStopped (s : State) (v : Word) : (s.writeMacl v).fpuStopped = s.fpuStopped := rfl

@[simp] theorem State.writeMacl_params (s : State) (v : Word) : (s.writeMacl v).params = s.params := rfl

@[simp] theorem State.writeMacl_inputs (s : State) (v : Word) : (s.writeMacl v).inputs = s.inputs := rfl

@[simp] theorem State.writeMacl_stored (s : State) (v : Word) : (s.writeMacl v).stored = s.stored := rfl

@[simp] theorem State.writeMacl_tick (s : State) (v : Word) : (s.writeMacl v).tick = s.tick := rfl

@[simp] theorem State.writeMacl_reg (s : State) (v : Word) (r : RegNum) : (s.writeMacl v).reg r = s.reg r := rfl

@[simp] theorem State.writeMacl_freg (s : State) (v : Word) (r : FRegNum) : (s.writeMacl v).freg r = s.freg r := rfl

@[simp] theorem State.writeMacl_t (s : State) (v : Word) : (s.writeMacl v).t = s.t := rfl

@[simp] theorem State.writeMacl_sBit (s : State) (v : Word) : (s.writeMacl v).sBit = s.sBit := rfl

@[simp] theorem State.writeMacl_q (s : State) (v : Word) : (s.writeMacl v).q = s.q := rfl

@[simp] theorem State.writeMacl_m (s : State) (v : Word) : (s.writeMacl v).m = s.m := rfl

@[simp] theorem State.writeMacl_imask (s : State) (v : Word) : (s.writeMacl v).imask = s.imask := rfl

@[simp] theorem State.writeMacl_ev (s : State) (v : Word) : (s.writeMacl v).ev = s.ev := rfl

@[simp] theorem State.writeMacl_ez (s : State) (v : Word) : (s.writeMacl v).ez = s.ez := rfl

@[simp] theorem State.writeMacl_nextPc (s : State) (v : Word) : (s.writeMacl v).nextPc = s.nextPc := rfl

@[simp] theorem State.writeMacl_pcOperand (s : State) (v : Word) : (s.writeMacl v).pcOperand = s.pcOperand := rfl

@[simp] theorem State.writeMacl_kindAt (s : State) (v : Word) (a : Word) : (s.writeMacl v).kindAt a = s.kindAt a := rfl

@[simp] theorem State.writeMacl_accessError (s : State) (v : Word) (kind : AccessKind) (width : Nat) (a : Word) : (s.writeMacl v).accessError kind width a = s.accessError kind width a := rfl

@[simp] theorem State.writeMacl_byteAt (s : State) (v : Word) (k : Nat) (a : Word) : (s.writeMacl v).byteAt k a = s.byteAt k a := rfl

@[simp] theorem State.writeMacl_halfAt (s : State) (v : Word) (k : Nat) (a : Word) : (s.writeMacl v).halfAt k a = s.halfAt k a := rfl

@[simp] theorem State.writeMacl_longAt (s : State) (v : Word) (k : Nat) (a : Word) : (s.writeMacl v).longAt k a = s.longAt k a := rfl

@[simp] theorem State.writeMacl_loadByte (s : State) (v : Word) (k : Nat) (a : Word) : (s.writeMacl v).loadByte k a = s.loadByte k a := rfl

@[simp] theorem State.writeMacl_loadHalf (s : State) (v : Word) (k : Nat) (a : Word) : (s.writeMacl v).loadHalf k a = s.loadHalf k a := rfl

@[simp] theorem State.writeMacl_loadLong (s : State) (v : Word) (k : Nat) (a : Word) : (s.writeMacl v).loadLong k a = s.loadLong k a := rfl

@[simp] theorem State.writeMacl_vectorAddr (s : State) (v : Word) (vec : BitVec 8) : (s.writeMacl v).vectorAddr vec = s.vectorAddr vec := rfl

@[simp] theorem State.writeMacl_stackedPc (s : State) (v : Word) (p : StackedPcPlain) (d : StackedPcSlot) : (s.writeMacl v).stackedPc p d = s.stackedPc p d := rfl

/-! ### writePr -/

@[simp] theorem State.writePr_regs (s : State) (v : Word) : (s.writePr v).regs = s.regs := rfl

@[simp] theorem State.writePr_pc (s : State) (v : Word) : (s.writePr v).pc = s.pc := rfl

@[simp] theorem State.writePr_sr (s : State) (v : Word) : (s.writePr v).sr = s.sr := rfl

@[simp] theorem State.writePr_gbr (s : State) (v : Word) : (s.writePr v).gbr = s.gbr := rfl

@[simp] theorem State.writePr_vbr (s : State) (v : Word) : (s.writePr v).vbr = s.vbr := rfl

@[simp] theorem State.writePr_mach (s : State) (v : Word) : (s.writePr v).mach = s.mach := rfl

@[simp] theorem State.writePr_macl (s : State) (v : Word) : (s.writePr v).macl = s.macl := rfl

@[simp] theorem State.writePr_pr (s : State) (v : Word) : (s.writePr v).pr = v := rfl

@[simp] theorem State.writePr_fregs (s : State) (v : Word) : (s.writePr v).fregs = s.fregs := rfl

@[simp] theorem State.writePr_fpul (s : State) (v : Word) : (s.writePr v).fpul = s.fpul := rfl

@[simp] theorem State.writePr_fpscr (s : State) (v : Word) : (s.writePr v).fpscr = s.fpscr := rfl

@[simp] theorem State.writePr_mem (s : State) (v : Word) : (s.writePr v).mem = s.mem := rfl

@[simp] theorem State.writePr_slot (s : State) (v : Word) : (s.writePr v).slot = s.slot := rfl

@[simp] theorem State.writePr_inhibit (s : State) (v : Word) : (s.writePr v).inhibit = s.inhibit := rfl

@[simp] theorem State.writePr_proc (s : State) (v : Word) : (s.writePr v).proc = s.proc := rfl

@[simp] theorem State.writePr_fpuStopped (s : State) (v : Word) : (s.writePr v).fpuStopped = s.fpuStopped := rfl

@[simp] theorem State.writePr_params (s : State) (v : Word) : (s.writePr v).params = s.params := rfl

@[simp] theorem State.writePr_inputs (s : State) (v : Word) : (s.writePr v).inputs = s.inputs := rfl

@[simp] theorem State.writePr_stored (s : State) (v : Word) : (s.writePr v).stored = s.stored := rfl

@[simp] theorem State.writePr_tick (s : State) (v : Word) : (s.writePr v).tick = s.tick := rfl

@[simp] theorem State.writePr_reg (s : State) (v : Word) (r : RegNum) : (s.writePr v).reg r = s.reg r := rfl

@[simp] theorem State.writePr_freg (s : State) (v : Word) (r : FRegNum) : (s.writePr v).freg r = s.freg r := rfl

@[simp] theorem State.writePr_t (s : State) (v : Word) : (s.writePr v).t = s.t := rfl

@[simp] theorem State.writePr_sBit (s : State) (v : Word) : (s.writePr v).sBit = s.sBit := rfl

@[simp] theorem State.writePr_q (s : State) (v : Word) : (s.writePr v).q = s.q := rfl

@[simp] theorem State.writePr_m (s : State) (v : Word) : (s.writePr v).m = s.m := rfl

@[simp] theorem State.writePr_imask (s : State) (v : Word) : (s.writePr v).imask = s.imask := rfl

@[simp] theorem State.writePr_ev (s : State) (v : Word) : (s.writePr v).ev = s.ev := rfl

@[simp] theorem State.writePr_ez (s : State) (v : Word) : (s.writePr v).ez = s.ez := rfl

@[simp] theorem State.writePr_mac (s : State) (v : Word) : (s.writePr v).mac = s.mac := rfl

@[simp] theorem State.writePr_nextPc (s : State) (v : Word) : (s.writePr v).nextPc = s.nextPc := rfl

@[simp] theorem State.writePr_pcOperand (s : State) (v : Word) : (s.writePr v).pcOperand = s.pcOperand := rfl

@[simp] theorem State.writePr_kindAt (s : State) (v : Word) (a : Word) : (s.writePr v).kindAt a = s.kindAt a := rfl

@[simp] theorem State.writePr_accessError (s : State) (v : Word) (kind : AccessKind) (width : Nat) (a : Word) : (s.writePr v).accessError kind width a = s.accessError kind width a := rfl

@[simp] theorem State.writePr_byteAt (s : State) (v : Word) (k : Nat) (a : Word) : (s.writePr v).byteAt k a = s.byteAt k a := rfl

@[simp] theorem State.writePr_halfAt (s : State) (v : Word) (k : Nat) (a : Word) : (s.writePr v).halfAt k a = s.halfAt k a := rfl

@[simp] theorem State.writePr_longAt (s : State) (v : Word) (k : Nat) (a : Word) : (s.writePr v).longAt k a = s.longAt k a := rfl

@[simp] theorem State.writePr_loadByte (s : State) (v : Word) (k : Nat) (a : Word) : (s.writePr v).loadByte k a = s.loadByte k a := rfl

@[simp] theorem State.writePr_loadHalf (s : State) (v : Word) (k : Nat) (a : Word) : (s.writePr v).loadHalf k a = s.loadHalf k a := rfl

@[simp] theorem State.writePr_loadLong (s : State) (v : Word) (k : Nat) (a : Word) : (s.writePr v).loadLong k a = s.loadLong k a := rfl

@[simp] theorem State.writePr_vectorAddr (s : State) (v : Word) (vec : BitVec 8) : (s.writePr v).vectorAddr vec = s.vectorAddr vec := rfl

@[simp] theorem State.writePr_stackedPc (s : State) (v : Word) (p : StackedPcPlain) (d : StackedPcSlot) : (s.writePr v).stackedPc p d = s.stackedPc p d := rfl

/-! ### writeFpul -/

@[simp] theorem State.writeFpul_regs (s : State) (v : Word) : (s.writeFpul v).regs = s.regs := rfl

@[simp] theorem State.writeFpul_pc (s : State) (v : Word) : (s.writeFpul v).pc = s.pc := rfl

@[simp] theorem State.writeFpul_sr (s : State) (v : Word) : (s.writeFpul v).sr = s.sr := rfl

@[simp] theorem State.writeFpul_gbr (s : State) (v : Word) : (s.writeFpul v).gbr = s.gbr := rfl

@[simp] theorem State.writeFpul_vbr (s : State) (v : Word) : (s.writeFpul v).vbr = s.vbr := rfl

@[simp] theorem State.writeFpul_mach (s : State) (v : Word) : (s.writeFpul v).mach = s.mach := rfl

@[simp] theorem State.writeFpul_macl (s : State) (v : Word) : (s.writeFpul v).macl = s.macl := rfl

@[simp] theorem State.writeFpul_pr (s : State) (v : Word) : (s.writeFpul v).pr = s.pr := rfl

@[simp] theorem State.writeFpul_fregs (s : State) (v : Word) : (s.writeFpul v).fregs = s.fregs := rfl

@[simp] theorem State.writeFpul_fpul (s : State) (v : Word) : (s.writeFpul v).fpul = v := rfl

@[simp] theorem State.writeFpul_fpscr (s : State) (v : Word) : (s.writeFpul v).fpscr = s.fpscr := rfl

@[simp] theorem State.writeFpul_mem (s : State) (v : Word) : (s.writeFpul v).mem = s.mem := rfl

@[simp] theorem State.writeFpul_slot (s : State) (v : Word) : (s.writeFpul v).slot = s.slot := rfl

@[simp] theorem State.writeFpul_inhibit (s : State) (v : Word) : (s.writeFpul v).inhibit = s.inhibit := rfl

@[simp] theorem State.writeFpul_proc (s : State) (v : Word) : (s.writeFpul v).proc = s.proc := rfl

@[simp] theorem State.writeFpul_fpuStopped (s : State) (v : Word) : (s.writeFpul v).fpuStopped = s.fpuStopped := rfl

@[simp] theorem State.writeFpul_params (s : State) (v : Word) : (s.writeFpul v).params = s.params := rfl

@[simp] theorem State.writeFpul_inputs (s : State) (v : Word) : (s.writeFpul v).inputs = s.inputs := rfl

@[simp] theorem State.writeFpul_stored (s : State) (v : Word) : (s.writeFpul v).stored = s.stored := rfl

@[simp] theorem State.writeFpul_tick (s : State) (v : Word) : (s.writeFpul v).tick = s.tick := rfl

@[simp] theorem State.writeFpul_reg (s : State) (v : Word) (r : RegNum) : (s.writeFpul v).reg r = s.reg r := rfl

@[simp] theorem State.writeFpul_freg (s : State) (v : Word) (r : FRegNum) : (s.writeFpul v).freg r = s.freg r := rfl

@[simp] theorem State.writeFpul_t (s : State) (v : Word) : (s.writeFpul v).t = s.t := rfl

@[simp] theorem State.writeFpul_sBit (s : State) (v : Word) : (s.writeFpul v).sBit = s.sBit := rfl

@[simp] theorem State.writeFpul_q (s : State) (v : Word) : (s.writeFpul v).q = s.q := rfl

@[simp] theorem State.writeFpul_m (s : State) (v : Word) : (s.writeFpul v).m = s.m := rfl

@[simp] theorem State.writeFpul_imask (s : State) (v : Word) : (s.writeFpul v).imask = s.imask := rfl

@[simp] theorem State.writeFpul_ev (s : State) (v : Word) : (s.writeFpul v).ev = s.ev := rfl

@[simp] theorem State.writeFpul_ez (s : State) (v : Word) : (s.writeFpul v).ez = s.ez := rfl

@[simp] theorem State.writeFpul_mac (s : State) (v : Word) : (s.writeFpul v).mac = s.mac := rfl

@[simp] theorem State.writeFpul_nextPc (s : State) (v : Word) : (s.writeFpul v).nextPc = s.nextPc := rfl

@[simp] theorem State.writeFpul_pcOperand (s : State) (v : Word) : (s.writeFpul v).pcOperand = s.pcOperand := rfl

@[simp] theorem State.writeFpul_kindAt (s : State) (v : Word) (a : Word) : (s.writeFpul v).kindAt a = s.kindAt a := rfl

@[simp] theorem State.writeFpul_accessError (s : State) (v : Word) (kind : AccessKind) (width : Nat) (a : Word) : (s.writeFpul v).accessError kind width a = s.accessError kind width a := rfl

@[simp] theorem State.writeFpul_byteAt (s : State) (v : Word) (k : Nat) (a : Word) : (s.writeFpul v).byteAt k a = s.byteAt k a := rfl

@[simp] theorem State.writeFpul_halfAt (s : State) (v : Word) (k : Nat) (a : Word) : (s.writeFpul v).halfAt k a = s.halfAt k a := rfl

@[simp] theorem State.writeFpul_longAt (s : State) (v : Word) (k : Nat) (a : Word) : (s.writeFpul v).longAt k a = s.longAt k a := rfl

@[simp] theorem State.writeFpul_loadByte (s : State) (v : Word) (k : Nat) (a : Word) : (s.writeFpul v).loadByte k a = s.loadByte k a := rfl

@[simp] theorem State.writeFpul_loadHalf (s : State) (v : Word) (k : Nat) (a : Word) : (s.writeFpul v).loadHalf k a = s.loadHalf k a := rfl

@[simp] theorem State.writeFpul_loadLong (s : State) (v : Word) (k : Nat) (a : Word) : (s.writeFpul v).loadLong k a = s.loadLong k a := rfl

@[simp] theorem State.writeFpul_vectorAddr (s : State) (v : Word) (vec : BitVec 8) : (s.writeFpul v).vectorAddr vec = s.vectorAddr vec := rfl

@[simp] theorem State.writeFpul_stackedPc (s : State) (v : Word) (p : StackedPcPlain) (d : StackedPcSlot) : (s.writeFpul v).stackedPc p d = s.stackedPc p d := rfl

/-! ### advance -/

@[simp] theorem State.advance_regs (s : State) : (s.advance).regs = s.regs := rfl

@[simp] theorem State.advance_pc (s : State) : (s.advance).pc = s.nextPc := rfl

@[simp] theorem State.advance_sr (s : State) : (s.advance).sr = s.sr := rfl

@[simp] theorem State.advance_gbr (s : State) : (s.advance).gbr = s.gbr := rfl

@[simp] theorem State.advance_vbr (s : State) : (s.advance).vbr = s.vbr := rfl

@[simp] theorem State.advance_mach (s : State) : (s.advance).mach = s.mach := rfl

@[simp] theorem State.advance_macl (s : State) : (s.advance).macl = s.macl := rfl

@[simp] theorem State.advance_pr (s : State) : (s.advance).pr = s.pr := rfl

@[simp] theorem State.advance_fregs (s : State) : (s.advance).fregs = s.fregs := rfl

@[simp] theorem State.advance_fpul (s : State) : (s.advance).fpul = s.fpul := rfl

@[simp] theorem State.advance_fpscr (s : State) : (s.advance).fpscr = s.fpscr := rfl

@[simp] theorem State.advance_mem (s : State) : (s.advance).mem = s.mem := rfl

@[simp] theorem State.advance_slot (s : State) : (s.advance).slot = Slot.none := rfl

@[simp] theorem State.advance_inhibit (s : State) : (s.advance).inhibit = false := rfl

@[simp] theorem State.advance_proc (s : State) : (s.advance).proc = s.proc := rfl

@[simp] theorem State.advance_fpuStopped (s : State) : (s.advance).fpuStopped = s.fpuStopped := rfl

@[simp] theorem State.advance_params (s : State) : (s.advance).params = s.params := rfl

@[simp] theorem State.advance_inputs (s : State) : (s.advance).inputs = s.inputs := rfl

@[simp] theorem State.advance_stored (s : State) : (s.advance).stored = s.stored := rfl

@[simp] theorem State.advance_tick (s : State) : (s.advance).tick = s.tick := rfl

@[simp] theorem State.advance_reg (s : State) (r : RegNum) : (s.advance).reg r = s.reg r := rfl

@[simp] theorem State.advance_freg (s : State) (r : FRegNum) : (s.advance).freg r = s.freg r := rfl

@[simp] theorem State.advance_t (s : State) : (s.advance).t = s.t := rfl

@[simp] theorem State.advance_sBit (s : State) : (s.advance).sBit = s.sBit := rfl

@[simp] theorem State.advance_q (s : State) : (s.advance).q = s.q := rfl

@[simp] theorem State.advance_m (s : State) : (s.advance).m = s.m := rfl

@[simp] theorem State.advance_imask (s : State) : (s.advance).imask = s.imask := rfl

@[simp] theorem State.advance_ev (s : State) : (s.advance).ev = s.ev := rfl

@[simp] theorem State.advance_ez (s : State) : (s.advance).ez = s.ez := rfl

@[simp] theorem State.advance_mac (s : State) : (s.advance).mac = s.mac := rfl

@[simp] theorem State.advance_kindAt (s : State) (a : Word) : (s.advance).kindAt a = s.kindAt a := rfl

@[simp] theorem State.advance_accessError (s : State) (kind : AccessKind) (width : Nat) (a : Word) : (s.advance).accessError kind width a = s.accessError kind width a := rfl

@[simp] theorem State.advance_byteAt (s : State) (k : Nat) (a : Word) : (s.advance).byteAt k a = s.byteAt k a := rfl

@[simp] theorem State.advance_halfAt (s : State) (k : Nat) (a : Word) : (s.advance).halfAt k a = s.halfAt k a := rfl

@[simp] theorem State.advance_longAt (s : State) (k : Nat) (a : Word) : (s.advance).longAt k a = s.longAt k a := rfl

@[simp] theorem State.advance_loadByte (s : State) (k : Nat) (a : Word) : (s.advance).loadByte k a = s.loadByte k a := rfl

@[simp] theorem State.advance_loadHalf (s : State) (k : Nat) (a : Word) : (s.advance).loadHalf k a = s.loadHalf k a := rfl

@[simp] theorem State.advance_loadLong (s : State) (k : Nat) (a : Word) : (s.advance).loadLong k a = s.loadLong k a := rfl

@[simp] theorem State.advance_vectorAddr (s : State) (v : BitVec 8) : (s.advance).vectorAddr v = s.vectorAddr v := rfl

/-! ### beginStep -/

@[simp] theorem State.beginStep_regs (s : State) : (s.beginStep).regs = s.regs := rfl

@[simp] theorem State.beginStep_pc (s : State) : (s.beginStep).pc = s.pc := rfl

@[simp] theorem State.beginStep_sr (s : State) : (s.beginStep).sr = s.sr := rfl

@[simp] theorem State.beginStep_gbr (s : State) : (s.beginStep).gbr = s.gbr := rfl

@[simp] theorem State.beginStep_vbr (s : State) : (s.beginStep).vbr = s.vbr := rfl

@[simp] theorem State.beginStep_mach (s : State) : (s.beginStep).mach = s.mach := rfl

@[simp] theorem State.beginStep_macl (s : State) : (s.beginStep).macl = s.macl := rfl

@[simp] theorem State.beginStep_pr (s : State) : (s.beginStep).pr = s.pr := rfl

@[simp] theorem State.beginStep_fregs (s : State) : (s.beginStep).fregs = s.fregs := rfl

@[simp] theorem State.beginStep_fpul (s : State) : (s.beginStep).fpul = s.fpul := rfl

@[simp] theorem State.beginStep_fpscr (s : State) : (s.beginStep).fpscr = s.fpscr := rfl

@[simp] theorem State.beginStep_mem (s : State) : (s.beginStep).mem = s.mem := rfl

@[simp] theorem State.beginStep_slot (s : State) : (s.beginStep).slot = s.slot := rfl

@[simp] theorem State.beginStep_inhibit (s : State) : (s.beginStep).inhibit = s.inhibit := rfl

@[simp] theorem State.beginStep_proc (s : State) : (s.beginStep).proc = s.proc := rfl

@[simp] theorem State.beginStep_fpuStopped (s : State) : (s.beginStep).fpuStopped = s.fpuStopped := rfl

@[simp] theorem State.beginStep_params (s : State) : (s.beginStep).params = s.params := rfl

@[simp] theorem State.beginStep_inputs (s : State) : (s.beginStep).inputs = s.inputs.tail := rfl

@[simp] theorem State.beginStep_stored (s : State) : (s.beginStep).stored = s.stored := rfl

@[simp] theorem State.beginStep_tick (s : State) : (s.beginStep).tick = s.tick + 1 := rfl

@[simp] theorem State.beginStep_reg (s : State) (r : RegNum) : (s.beginStep).reg r = s.reg r := rfl

@[simp] theorem State.beginStep_freg (s : State) (r : FRegNum) : (s.beginStep).freg r = s.freg r := rfl

@[simp] theorem State.beginStep_t (s : State) : (s.beginStep).t = s.t := rfl

@[simp] theorem State.beginStep_sBit (s : State) : (s.beginStep).sBit = s.sBit := rfl

@[simp] theorem State.beginStep_q (s : State) : (s.beginStep).q = s.q := rfl

@[simp] theorem State.beginStep_m (s : State) : (s.beginStep).m = s.m := rfl

@[simp] theorem State.beginStep_imask (s : State) : (s.beginStep).imask = s.imask := rfl

@[simp] theorem State.beginStep_ev (s : State) : (s.beginStep).ev = s.ev := rfl

@[simp] theorem State.beginStep_ez (s : State) : (s.beginStep).ez = s.ez := rfl

@[simp] theorem State.beginStep_mac (s : State) : (s.beginStep).mac = s.mac := rfl

@[simp] theorem State.beginStep_nextPc (s : State) : (s.beginStep).nextPc = s.nextPc := rfl

@[simp] theorem State.beginStep_pcOperand (s : State) : (s.beginStep).pcOperand = s.pcOperand := rfl

@[simp] theorem State.beginStep_kindAt (s : State) (a : Word) : (s.beginStep).kindAt a = s.kindAt a := rfl

@[simp] theorem State.beginStep_accessError (s : State) (kind : AccessKind) (width : Nat) (a : Word) : (s.beginStep).accessError kind width a = s.accessError kind width a := rfl

@[simp] theorem State.beginStep_vectorAddr (s : State) (v : BitVec 8) : (s.beginStep).vectorAddr v = s.vectorAddr v := rfl

@[simp] theorem State.beginStep_stackedPc (s : State) (p : StackedPcPlain) (d : StackedPcSlot) : (s.beginStep).stackedPc p d = s.stackedPc p d := rfl

end Sys2Proof.Machine
end

