-- ==== Sys2Proof/Laws/Registers.lean ====
section
/-! SUPPORT. Registers and status bits: a read after a write, and that a write of one bit leaves the others. -/

namespace Sys2Proof.Machine

/-! ### General and floating-point registers -/

/-- A general register after a write of one. -/
theorem State.reg_setReg (s : State) (n r : RegNum) (v : Word) :
    (s.setReg n v).reg r = if r = n then v else s.reg r := by
  simp only [State.reg, State.setReg, Vector.getElem_set, BitVec.toNat_inj, eq_comm]

@[simp] theorem State.reg_setReg_self (s : State) (n : RegNum) (v : Word) : (s.setReg n v).reg n = v := by
  simp [State.reg_setReg]

theorem State.reg_setReg_of_ne (s : State) {n r : RegNum} (v : Word) (h : r ≠ n) :
    (s.setReg n v).reg r = s.reg r := by
  simp [State.reg_setReg, h]

/-- A floating-point register after a write of one. -/
theorem State.freg_setFreg (s : State) (n r : FRegNum) (v : Word) :
    (s.setFreg n v).freg r = if r = n then v else s.freg r := by
  simp only [State.freg, State.setFreg, Vector.getElem_set, BitVec.toNat_inj, eq_comm]

@[simp] theorem State.freg_setFreg_self (s : State) (n : FRegNum) (v : Word) : (s.setFreg n v).freg n = v := by
  simp [State.freg_setFreg]

theorem State.freg_setFreg_of_ne (s : State) {n r : FRegNum} (v : Word) (h : r ≠ n) :
    (s.setFreg n v).freg r = s.freg r := by
  simp [State.freg_setFreg, h]

/-! ### Single bits -/

/-- A bit of a longword after a write of one. -/
theorem getLsbD_setBit (w : Word) (i j : Nat) (b : Bool) (hi : i < 32) :
    (setBit w i b).getLsbD j = if j = i then b else w.getLsbD j := by
  have key : (BitVec.twoPow 32 i).getLsbD j = (decide (j < 32) && decide (i = j)) := by
    rw [BitVec.getLsbD_twoPow]
    by_cases h : i = j
    · subst h; simp [hi]
    · simp [h]
  cases b
  · simp only [setBit, Bool.false_eq_true, if_false, BitVec.getLsbD_and, BitVec.getLsbD_not, key]
    by_cases h : j = i
    · subst h; simp [hi]
    · have h' : ¬ i = j := fun e => h e.symm
      simp only [h, h', decide_false, Bool.and_false, Bool.not_false, if_false, Bool.and_true]
      by_cases hj : j < 32
      · simp [hj]
      · simp [hj, BitVec.getLsbD_of_ge w j (by omega)]
  · simp only [setBit, if_true, BitVec.getLsbD_or, key]
    by_cases h : j = i
    · subst h; simp [hi]
    · have h' : ¬ i = j := fun e => h e.symm
      simp [h, h']

/-- A write of one bit changes nothing under a mask that clears it. -/
theorem setBit_and_not (w mask : Word) (i : Nat) (b : Bool) (hi : i < 32) (hm : mask.getLsbD i = true) :
    setBit w i b &&& ~~~mask = w &&& ~~~mask := by
  apply BitVec.eq_of_getLsbD_eq
  intro j hj
  simp only [BitVec.getLsbD_and, BitVec.getLsbD_not, getLsbD_setBit _ _ _ _ hi]
  by_cases h : j = i
  · subst h; simp [hm]
  · simp [h]

/-! ### T, Q, M, I3-I0 -/

@[simp] theorem State.t_setT (s : State) (b : Bool) : (s.setT b).t = b := by
  simp (disch := decide) only [State.t, State.setT_sr, getLsbD_setBit]; rfl

@[simp] theorem State.q_setT (s : State) (b : Bool) : (s.setT b).q = s.q := by
  simp (disch := decide) only [State.q, State.setT_sr, getLsbD_setBit]; rfl

@[simp] theorem State.m_setT (s : State) (b : Bool) : (s.setT b).m = s.m := by
  simp (disch := decide) only [State.m, State.setT_sr, getLsbD_setBit]; rfl

@[simp] theorem State.q_setQ (s : State) (b : Bool) : (s.setQ b).q = b := by
  simp (disch := decide) only [State.q, State.setQ_sr, getLsbD_setBit]; rfl

@[simp] theorem State.m_setQ (s : State) (b : Bool) : (s.setQ b).m = s.m := by
  simp (disch := decide) only [State.m, State.setQ_sr, getLsbD_setBit]; rfl

@[simp] theorem State.t_setQ (s : State) (b : Bool) : (s.setQ b).t = s.t := by
  simp (disch := decide) only [State.t, State.setQ_sr, getLsbD_setBit]; rfl

@[simp] theorem State.m_setM (s : State) (b : Bool) : (s.setM b).m = b := by
  simp (disch := decide) only [State.m, State.setM_sr, getLsbD_setBit]; rfl

@[simp] theorem State.q_setM (s : State) (b : Bool) : (s.setM b).q = s.q := by
  simp (disch := decide) only [State.q, State.setM_sr, getLsbD_setBit]; rfl

@[simp] theorem State.t_setM (s : State) (b : Bool) : (s.setM b).t = s.t := by
  simp (disch := decide) only [State.t, State.setM_sr, getLsbD_setBit]; rfl

/-- A write of T changes nothing but bit 0. -/
theorem State.sr_setT_and (s : State) (b : Bool) : (s.setT b).sr &&& ~~~(1 : Word) = s.sr &&& ~~~(1 : Word) := by
  rw [State.setT_sr]; exact setBit_and_not _ _ _ _ (by decide) (by decide)

/-- The two masks of the interrupt level are complementary. -/
theorem State.imask_setImask (s : State) (l : BitVec 4) : (s.setImask l).imask = l := by
  apply BitVec.eq_of_getLsbD_eq
  intro i hi
  have : i = 0 ∨ i = 1 ∨ i = 2 ∨ i = 3 := by omega
  rcases this with rfl | rfl | rfl | rfl <;> simp [State.imask]

/-- A new interrupt level changes nothing but bits 7-4. -/
theorem State.sr_setImask_and (s : State) (l : BitVec 4) :
    (s.setImask l).sr &&& ~~~(0xF0 : Word) = s.sr &&& ~~~(0xF0 : Word) := by
  apply BitVec.eq_of_getLsbD_eq
  intro i hi
  simp only [State.setImask_sr, BitVec.getLsbD_and, BitVec.getLsbD_or, BitVec.getLsbD_not,
    BitVec.getLsbD_shiftLeft, BitVec.getLsbD_setWidth]
  by_cases h : 4 ≤ i ∧ i < 8
  · have : i = 4 ∨ i = 5 ∨ i = 6 ∨ i = 7 := by omega
    rcases this with rfl | rfl | rfl | rfl <;> simp
  · have hl : (decide (i < 32) && !decide (i < 4) && (decide (i - 4 < 32) && l.getLsbD (i - 4))) = false := by
      by_cases h4 : i < 4
      · simp [h4]
      · simp [BitVec.getLsbD_of_ge l (i - 4) (by omega)]
    have hall : ∀ j : Fin 32, ¬ (4 ≤ j.val ∧ j.val < 8) → (4294967055#32).getLsbD j.val = true := by decide
    have hmask := hall ⟨i, hi⟩ h
    simp only [hl, Bool.or_false]
    cases hs : s.sr.getLsbD i <;> simp_all

/-! ### FPSCR -/

/-- Every value FPSCR takes has its fixed bits. -/
theorem fpscrValue_and (v : Word) : fpscrValue v &&& ~~~(0x00018C60 : Word) = 0x00040001 := by
  unfold fpscrValue
  apply BitVec.eq_of_getLsbD_eq
  intro i hi
  simp only [BitVec.getLsbD_and, BitVec.getLsbD_or, BitVec.getLsbD_not]
  have hall : ∀ j : Fin 32,
      ((false && (0x00018C60 : Word).getLsbD j.val || (0x00040001 : Word).getLsbD j.val) &&
        (decide (j.val < 32) && !(0x00018C60 : Word).getLsbD j.val)) = (0x00040001 : Word).getLsbD j.val ∧
      ((true && (0x00018C60 : Word).getLsbD j.val || (0x00040001 : Word).getLsbD j.val) &&
        (decide (j.val < 32) && !(0x00018C60 : Word).getLsbD j.val)) = (0x00040001 : Word).getLsbD j.val := by
    decide
  have := hall ⟨i, hi⟩
  cases h : v.getLsbD i
  · exact this.1
  · exact this.2

theorem State.fpscr_clearCause_and (s : State) :
    s.clearCause.fpscr &&& ~~~(0x00018C60 : Word) = s.fpscr &&& ~~~(0x00018C60 : Word) := by
  rw [State.clearCause_fpscr, setBit_and_not _ _ _ _ (by decide) (by decide),
    setBit_and_not _ _ _ _ (by decide) (by decide)]

theorem State.fpscr_setInvalid_and (s : State) :
    s.setInvalid.fpscr &&& ~~~(0x00018C60 : Word) = s.fpscr &&& ~~~(0x00018C60 : Word) := by
  rw [State.setInvalid_fpscr, setBit_and_not _ _ _ _ (by decide) (by decide),
    setBit_and_not _ _ _ _ (by decide) (by decide)]

theorem State.fpscr_setDivZero_and (s : State) :
    s.setDivZero.fpscr &&& ~~~(0x00018C60 : Word) = s.fpscr &&& ~~~(0x00018C60 : Word) := by
  rw [State.setDivZero_fpscr, setBit_and_not _ _ _ _ (by decide) (by decide),
    setBit_and_not _ _ _ _ (by decide) (by decide)]

@[simp] theorem State.ev_clearCause (s : State) : s.clearCause.ev = s.ev := by
  simp (disch := decide) only [State.ev, State.clearCause_fpscr, getLsbD_setBit]; rfl

@[simp] theorem State.ez_clearCause (s : State) : s.clearCause.ez = s.ez := by
  simp (disch := decide) only [State.ez, State.clearCause_fpscr, getLsbD_setBit]; rfl

@[simp] theorem State.ev_setInvalid (s : State) : s.setInvalid.ev = s.ev := by
  simp (disch := decide) only [State.ev, State.setInvalid_fpscr, getLsbD_setBit]; rfl

@[simp] theorem State.ez_setDivZero (s : State) : s.setDivZero.ez = s.ez := by
  simp (disch := decide) only [State.ez, State.setDivZero_fpscr, getLsbD_setBit]; rfl

/-! ### SR under its mask -/

/-- Writing a bit that SR holds keeps the bits it does not hold at 0. -/
theorem setBit_and_not_mask (w : Word) (p : Params) (i : Nat) (b : Bool) (hi : i = 0 ∨ i = 1 ∨ i = 8 ∨ i = 9)
    (h : w &&& ~~~(srWriteMask p) = 0) : setBit w i b &&& ~~~(srWriteMask p) = 0 := by
  have hm : (srWriteMask p).getLsbD i = true := by
    rcases hi with rfl | rfl | rfl | rfl <;> simp [srWriteMask]
  rw [setBit_and_not _ _ _ _ (by omega) hm, h]

/-- A value under a mask has no bit outside it. -/
theorem and_and_not (v mask : Word) : v &&& mask &&& ~~~mask = 0 := by
  apply BitVec.eq_of_getLsbD_eq
  intro i hi
  cases h : mask.getLsbD i <;> simp [h]

end Sys2Proof.Machine
end

