-- ==== Sys2Proof/Laws/Ops.lean ====
section
/-! SUPPORT. What each shared operation of `Machine/Ops.lean` can do, said once. -/

namespace Sys2Proof.Machine

/-! ### A store leaves every register alone -/

@[simp] theorem State.putByte_regs (s : State) (a : Word) (v : Byte) : (s.putByte a v).regs = s.regs := by
  unfold State.putByte; split <;> rfl

@[simp] theorem State.putByte_pc (s : State) (a : Word) (v : Byte) : (s.putByte a v).pc = s.pc := by
  unfold State.putByte; split <;> rfl

@[simp] theorem State.putByte_sr (s : State) (a : Word) (v : Byte) : (s.putByte a v).sr = s.sr := by
  unfold State.putByte; split <;> rfl

@[simp] theorem State.putByte_gbr (s : State) (a : Word) (v : Byte) : (s.putByte a v).gbr = s.gbr := by
  unfold State.putByte; split <;> rfl

@[simp] theorem State.putByte_vbr (s : State) (a : Word) (v : Byte) : (s.putByte a v).vbr = s.vbr := by
  unfold State.putByte; split <;> rfl

@[simp] theorem State.putByte_mach (s : State) (a : Word) (v : Byte) : (s.putByte a v).mach = s.mach := by
  unfold State.putByte; split <;> rfl

@[simp] theorem State.putByte_macl (s : State) (a : Word) (v : Byte) : (s.putByte a v).macl = s.macl := by
  unfold State.putByte; split <;> rfl

@[simp] theorem State.putByte_pr (s : State) (a : Word) (v : Byte) : (s.putByte a v).pr = s.pr := by
  unfold State.putByte; split <;> rfl

@[simp] theorem State.putByte_fregs (s : State) (a : Word) (v : Byte) : (s.putByte a v).fregs = s.fregs := by
  unfold State.putByte; split <;> rfl

@[simp] theorem State.putByte_fpul (s : State) (a : Word) (v : Byte) : (s.putByte a v).fpul = s.fpul := by
  unfold State.putByte; split <;> rfl

@[simp] theorem State.putByte_fpscr (s : State) (a : Word) (v : Byte) : (s.putByte a v).fpscr = s.fpscr := by
  unfold State.putByte; split <;> rfl

@[simp] theorem State.putByte_slot (s : State) (a : Word) (v : Byte) : (s.putByte a v).slot = s.slot := by
  unfold State.putByte; split <;> rfl

@[simp] theorem State.putByte_inhibit (s : State) (a : Word) (v : Byte) : (s.putByte a v).inhibit = s.inhibit := by
  unfold State.putByte; split <;> rfl

@[simp] theorem State.putByte_proc (s : State) (a : Word) (v : Byte) : (s.putByte a v).proc = s.proc := by
  unfold State.putByte; split <;> rfl

@[simp] theorem State.putByte_fpuStopped (s : State) (a : Word) (v : Byte) : (s.putByte a v).fpuStopped = s.fpuStopped := by
  unfold State.putByte; split <;> rfl

@[simp] theorem State.putByte_params (s : State) (a : Word) (v : Byte) : (s.putByte a v).params = s.params := by
  unfold State.putByte; split <;> rfl

@[simp] theorem State.putByte_inputs (s : State) (a : Word) (v : Byte) : (s.putByte a v).inputs = s.inputs := by
  unfold State.putByte; split <;> rfl

@[simp] theorem State.putByte_tick (s : State) (a : Word) (v : Byte) : (s.putByte a v).tick = s.tick := by
  unfold State.putByte; split <;> rfl

@[simp] theorem State.putHalf_regs (s : State) (a : Word) (v : Half) : (s.putHalf a v).regs = s.regs := by
  simp [State.putHalf]

@[simp] theorem State.putHalf_pc (s : State) (a : Word) (v : Half) : (s.putHalf a v).pc = s.pc := by
  simp [State.putHalf]

@[simp] theorem State.putHalf_sr (s : State) (a : Word) (v : Half) : (s.putHalf a v).sr = s.sr := by
  simp [State.putHalf]

@[simp] theorem State.putHalf_gbr (s : State) (a : Word) (v : Half) : (s.putHalf a v).gbr = s.gbr := by
  simp [State.putHalf]

@[simp] theorem State.putHalf_vbr (s : State) (a : Word) (v : Half) : (s.putHalf a v).vbr = s.vbr := by
  simp [State.putHalf]

@[simp] theorem State.putHalf_mach (s : State) (a : Word) (v : Half) : (s.putHalf a v).mach = s.mach := by
  simp [State.putHalf]

@[simp] theorem State.putHalf_macl (s : State) (a : Word) (v : Half) : (s.putHalf a v).macl = s.macl := by
  simp [State.putHalf]

@[simp] theorem State.putHalf_pr (s : State) (a : Word) (v : Half) : (s.putHalf a v).pr = s.pr := by
  simp [State.putHalf]

@[simp] theorem State.putHalf_fregs (s : State) (a : Word) (v : Half) : (s.putHalf a v).fregs = s.fregs := by
  simp [State.putHalf]

@[simp] theorem State.putHalf_fpul (s : State) (a : Word) (v : Half) : (s.putHalf a v).fpul = s.fpul := by
  simp [State.putHalf]

@[simp] theorem State.putHalf_fpscr (s : State) (a : Word) (v : Half) : (s.putHalf a v).fpscr = s.fpscr := by
  simp [State.putHalf]

@[simp] theorem State.putHalf_slot (s : State) (a : Word) (v : Half) : (s.putHalf a v).slot = s.slot := by
  simp [State.putHalf]

@[simp] theorem State.putHalf_inhibit (s : State) (a : Word) (v : Half) : (s.putHalf a v).inhibit = s.inhibit := by
  simp [State.putHalf]

@[simp] theorem State.putHalf_proc (s : State) (a : Word) (v : Half) : (s.putHalf a v).proc = s.proc := by
  simp [State.putHalf]

@[simp] theorem State.putHalf_fpuStopped (s : State) (a : Word) (v : Half) : (s.putHalf a v).fpuStopped = s.fpuStopped := by
  simp [State.putHalf]

@[simp] theorem State.putHalf_params (s : State) (a : Word) (v : Half) : (s.putHalf a v).params = s.params := by
  simp [State.putHalf]

@[simp] theorem State.putHalf_inputs (s : State) (a : Word) (v : Half) : (s.putHalf a v).inputs = s.inputs := by
  simp [State.putHalf]

@[simp] theorem State.putHalf_tick (s : State) (a : Word) (v : Half) : (s.putHalf a v).tick = s.tick := by
  simp [State.putHalf]

@[simp] theorem State.putLong_regs (s : State) (a : Word) (v : Word) : (s.putLong a v).regs = s.regs := by
  simp [State.putLong]

@[simp] theorem State.putLong_pc (s : State) (a : Word) (v : Word) : (s.putLong a v).pc = s.pc := by
  simp [State.putLong]

@[simp] theorem State.putLong_sr (s : State) (a : Word) (v : Word) : (s.putLong a v).sr = s.sr := by
  simp [State.putLong]

@[simp] theorem State.putLong_gbr (s : State) (a : Word) (v : Word) : (s.putLong a v).gbr = s.gbr := by
  simp [State.putLong]

@[simp] theorem State.putLong_vbr (s : State) (a : Word) (v : Word) : (s.putLong a v).vbr = s.vbr := by
  simp [State.putLong]

@[simp] theorem State.putLong_mach (s : State) (a : Word) (v : Word) : (s.putLong a v).mach = s.mach := by
  simp [State.putLong]

@[simp] theorem State.putLong_macl (s : State) (a : Word) (v : Word) : (s.putLong a v).macl = s.macl := by
  simp [State.putLong]

@[simp] theorem State.putLong_pr (s : State) (a : Word) (v : Word) : (s.putLong a v).pr = s.pr := by
  simp [State.putLong]

@[simp] theorem State.putLong_fregs (s : State) (a : Word) (v : Word) : (s.putLong a v).fregs = s.fregs := by
  simp [State.putLong]

@[simp] theorem State.putLong_fpul (s : State) (a : Word) (v : Word) : (s.putLong a v).fpul = s.fpul := by
  simp [State.putLong]

@[simp] theorem State.putLong_fpscr (s : State) (a : Word) (v : Word) : (s.putLong a v).fpscr = s.fpscr := by
  simp [State.putLong]

@[simp] theorem State.putLong_slot (s : State) (a : Word) (v : Word) : (s.putLong a v).slot = s.slot := by
  simp [State.putLong]

@[simp] theorem State.putLong_inhibit (s : State) (a : Word) (v : Word) : (s.putLong a v).inhibit = s.inhibit := by
  simp [State.putLong]

@[simp] theorem State.putLong_proc (s : State) (a : Word) (v : Word) : (s.putLong a v).proc = s.proc := by
  simp [State.putLong]

@[simp] theorem State.putLong_fpuStopped (s : State) (a : Word) (v : Word) : (s.putLong a v).fpuStopped = s.fpuStopped := by
  simp [State.putLong]

@[simp] theorem State.putLong_params (s : State) (a : Word) (v : Word) : (s.putLong a v).params = s.params := by
  simp [State.putLong]

@[simp] theorem State.putLong_inputs (s : State) (a : Word) (v : Word) : (s.putLong a v).inputs = s.inputs := by
  simp [State.putLong]

@[simp] theorem State.putLong_tick (s : State) (a : Word) (v : Word) : (s.putLong a v).tick = s.tick := by
  simp [State.putLong]

@[simp] theorem State.scrambleLong_regs (s : State) (a : Word) : (s.scrambleLong a).regs = s.regs := by
  simp [State.scrambleLong]

@[simp] theorem State.scrambleAround_regs (s : State) (a : Word) (width : Nat) :
    (s.scrambleAround a width).regs = s.regs := by
  simp [State.scrambleAround]

@[simp] theorem State.scrambleLong_pc (s : State) (a : Word) : (s.scrambleLong a).pc = s.pc := by
  simp [State.scrambleLong]

@[simp] theorem State.scrambleAround_pc (s : State) (a : Word) (width : Nat) :
    (s.scrambleAround a width).pc = s.pc := by
  simp [State.scrambleAround]

@[simp] theorem State.scrambleLong_sr (s : State) (a : Word) : (s.scrambleLong a).sr = s.sr := by
  simp [State.scrambleLong]

@[simp] theorem State.scrambleAround_sr (s : State) (a : Word) (width : Nat) :
    (s.scrambleAround a width).sr = s.sr := by
  simp [State.scrambleAround]

@[simp] theorem State.scrambleLong_gbr (s : State) (a : Word) : (s.scrambleLong a).gbr = s.gbr := by
  simp [State.scrambleLong]

@[simp] theorem State.scrambleAround_gbr (s : State) (a : Word) (width : Nat) :
    (s.scrambleAround a width).gbr = s.gbr := by
  simp [State.scrambleAround]

@[simp] theorem State.scrambleLong_vbr (s : State) (a : Word) : (s.scrambleLong a).vbr = s.vbr := by
  simp [State.scrambleLong]

@[simp] theorem State.scrambleAround_vbr (s : State) (a : Word) (width : Nat) :
    (s.scrambleAround a width).vbr = s.vbr := by
  simp [State.scrambleAround]

@[simp] theorem State.scrambleLong_mach (s : State) (a : Word) : (s.scrambleLong a).mach = s.mach := by
  simp [State.scrambleLong]

@[simp] theorem State.scrambleAround_mach (s : State) (a : Word) (width : Nat) :
    (s.scrambleAround a width).mach = s.mach := by
  simp [State.scrambleAround]

@[simp] theorem State.scrambleLong_macl (s : State) (a : Word) : (s.scrambleLong a).macl = s.macl := by
  simp [State.scrambleLong]

@[simp] theorem State.scrambleAround_macl (s : State) (a : Word) (width : Nat) :
    (s.scrambleAround a width).macl = s.macl := by
  simp [State.scrambleAround]

@[simp] theorem State.scrambleLong_pr (s : State) (a : Word) : (s.scrambleLong a).pr = s.pr := by
  simp [State.scrambleLong]

@[simp] theorem State.scrambleAround_pr (s : State) (a : Word) (width : Nat) :
    (s.scrambleAround a width).pr = s.pr := by
  simp [State.scrambleAround]

@[simp] theorem State.scrambleLong_fregs (s : State) (a : Word) : (s.scrambleLong a).fregs = s.fregs := by
  simp [State.scrambleLong]

@[simp] theorem State.scrambleAround_fregs (s : State) (a : Word) (width : Nat) :
    (s.scrambleAround a width).fregs = s.fregs := by
  simp [State.scrambleAround]

@[simp] theorem State.scrambleLong_fpul (s : State) (a : Word) : (s.scrambleLong a).fpul = s.fpul := by
  simp [State.scrambleLong]

@[simp] theorem State.scrambleAround_fpul (s : State) (a : Word) (width : Nat) :
    (s.scrambleAround a width).fpul = s.fpul := by
  simp [State.scrambleAround]

@[simp] theorem State.scrambleLong_fpscr (s : State) (a : Word) : (s.scrambleLong a).fpscr = s.fpscr := by
  simp [State.scrambleLong]

@[simp] theorem State.scrambleAround_fpscr (s : State) (a : Word) (width : Nat) :
    (s.scrambleAround a width).fpscr = s.fpscr := by
  simp [State.scrambleAround]

@[simp] theorem State.scrambleLong_slot (s : State) (a : Word) : (s.scrambleLong a).slot = s.slot := by
  simp [State.scrambleLong]

@[simp] theorem State.scrambleAround_slot (s : State) (a : Word) (width : Nat) :
    (s.scrambleAround a width).slot = s.slot := by
  simp [State.scrambleAround]

@[simp] theorem State.scrambleLong_inhibit (s : State) (a : Word) : (s.scrambleLong a).inhibit = s.inhibit := by
  simp [State.scrambleLong]

@[simp] theorem State.scrambleAround_inhibit (s : State) (a : Word) (width : Nat) :
    (s.scrambleAround a width).inhibit = s.inhibit := by
  simp [State.scrambleAround]

@[simp] theorem State.scrambleLong_proc (s : State) (a : Word) : (s.scrambleLong a).proc = s.proc := by
  simp [State.scrambleLong]

@[simp] theorem State.scrambleAround_proc (s : State) (a : Word) (width : Nat) :
    (s.scrambleAround a width).proc = s.proc := by
  simp [State.scrambleAround]

@[simp] theorem State.scrambleLong_fpuStopped (s : State) (a : Word) : (s.scrambleLong a).fpuStopped = s.fpuStopped := by
  simp [State.scrambleLong]

@[simp] theorem State.scrambleAround_fpuStopped (s : State) (a : Word) (width : Nat) :
    (s.scrambleAround a width).fpuStopped = s.fpuStopped := by
  simp [State.scrambleAround]

@[simp] theorem State.scrambleLong_params (s : State) (a : Word) : (s.scrambleLong a).params = s.params := by
  simp [State.scrambleLong]

@[simp] theorem State.scrambleAround_params (s : State) (a : Word) (width : Nat) :
    (s.scrambleAround a width).params = s.params := by
  simp [State.scrambleAround]

@[simp] theorem State.scrambleLong_inputs (s : State) (a : Word) : (s.scrambleLong a).inputs = s.inputs := by
  simp [State.scrambleLong]

@[simp] theorem State.scrambleAround_inputs (s : State) (a : Word) (width : Nat) :
    (s.scrambleAround a width).inputs = s.inputs := by
  simp [State.scrambleAround]

@[simp] theorem State.scrambleLong_tick (s : State) (a : Word) : (s.scrambleLong a).tick = s.tick := by
  simp [State.scrambleLong]

@[simp] theorem State.scrambleAround_tick (s : State) (a : Word) (width : Nat) :
    (s.scrambleAround a width).tick = s.tick := by
  simp [State.scrambleAround]

@[simp] theorem State.putByte_reg (s : State) (a : Word) (v : Byte) (r : RegNum) : (s.putByte a v).reg r = s.reg r := by
  simp [State.reg]

@[simp] theorem State.putByte_freg (s : State) (a : Word) (v : Byte) (r : FRegNum) : (s.putByte a v).freg r = s.freg r := by
  simp [State.freg]

@[simp] theorem State.putByte_t (s : State) (a : Word) (v : Byte) : (s.putByte a v).t = s.t := by
  simp [State.t]

@[simp] theorem State.putByte_sBit (s : State) (a : Word) (v : Byte) : (s.putByte a v).sBit = s.sBit := by
  simp [State.sBit]

@[simp] theorem State.putByte_q (s : State) (a : Word) (v : Byte) : (s.putByte a v).q = s.q := by
  simp [State.q]

@[simp] theorem State.putByte_m (s : State) (a : Word) (v : Byte) : (s.putByte a v).m = s.m := by
  simp [State.m]

@[simp] theorem State.putByte_imask (s : State) (a : Word) (v : Byte) : (s.putByte a v).imask = s.imask := by
  simp [State.imask]

@[simp] theorem State.putByte_mac (s : State) (a : Word) (v : Byte) : (s.putByte a v).mac = s.mac := by
  simp [State.mac]

@[simp] theorem State.putByte_kindAt (s : State) (a : Word) (v : Byte) (c : Word) : (s.putByte a v).kindAt c = s.kindAt c := by
  simp [State.kindAt]

@[simp] theorem State.putByte_accessError (s : State) (a : Word) (v : Byte) (kind : AccessKind) (width : Nat) (c : Word) : (s.putByte a v).accessError kind width c = s.accessError kind width c := by
  simp [State.accessError, State.touches]

@[simp] theorem State.putByte_vectorAddr (s : State) (a : Word) (v : Byte) (vec : BitVec 8) : (s.putByte a v).vectorAddr vec = s.vectorAddr vec := by
  simp [State.vectorAddr]

@[simp] theorem State.putHalf_reg (s : State) (a : Word) (v : Half) (r : RegNum) : (s.putHalf a v).reg r = s.reg r := by
  simp [State.reg]

@[simp] theorem State.putHalf_freg (s : State) (a : Word) (v : Half) (r : FRegNum) : (s.putHalf a v).freg r = s.freg r := by
  simp [State.freg]

@[simp] theorem State.putHalf_t (s : State) (a : Word) (v : Half) : (s.putHalf a v).t = s.t := by
  simp [State.t]

@[simp] theorem State.putHalf_sBit (s : State) (a : Word) (v : Half) : (s.putHalf a v).sBit = s.sBit := by
  simp [State.sBit]

@[simp] theorem State.putHalf_q (s : State) (a : Word) (v : Half) : (s.putHalf a v).q = s.q := by
  simp [State.q]

@[simp] theorem State.putHalf_m (s : State) (a : Word) (v : Half) : (s.putHalf a v).m = s.m := by
  simp [State.m]

@[simp] theorem State.putHalf_imask (s : State) (a : Word) (v : Half) : (s.putHalf a v).imask = s.imask := by
  simp [State.imask]

@[simp] theorem State.putHalf_mac (s : State) (a : Word) (v : Half) : (s.putHalf a v).mac = s.mac := by
  simp [State.mac]

@[simp] theorem State.putHalf_kindAt (s : State) (a : Word) (v : Half) (c : Word) : (s.putHalf a v).kindAt c = s.kindAt c := by
  simp [State.kindAt]

@[simp] theorem State.putHalf_accessError (s : State) (a : Word) (v : Half) (kind : AccessKind) (width : Nat) (c : Word) : (s.putHalf a v).accessError kind width c = s.accessError kind width c := by
  simp [State.accessError, State.touches]

@[simp] theorem State.putHalf_vectorAddr (s : State) (a : Word) (v : Half) (vec : BitVec 8) : (s.putHalf a v).vectorAddr vec = s.vectorAddr vec := by
  simp [State.vectorAddr]

@[simp] theorem State.putLong_reg (s : State) (a : Word) (v : Word) (r : RegNum) : (s.putLong a v).reg r = s.reg r := by
  simp [State.reg]

@[simp] theorem State.putLong_freg (s : State) (a : Word) (v : Word) (r : FRegNum) : (s.putLong a v).freg r = s.freg r := by
  simp [State.freg]

@[simp] theorem State.putLong_t (s : State) (a : Word) (v : Word) : (s.putLong a v).t = s.t := by
  simp [State.t]

@[simp] theorem State.putLong_sBit (s : State) (a : Word) (v : Word) : (s.putLong a v).sBit = s.sBit := by
  simp [State.sBit]

@[simp] theorem State.putLong_q (s : State) (a : Word) (v : Word) : (s.putLong a v).q = s.q := by
  simp [State.q]

@[simp] theorem State.putLong_m (s : State) (a : Word) (v : Word) : (s.putLong a v).m = s.m := by
  simp [State.m]

@[simp] theorem State.putLong_imask (s : State) (a : Word) (v : Word) : (s.putLong a v).imask = s.imask := by
  simp [State.imask]

@[simp] theorem State.putLong_mac (s : State) (a : Word) (v : Word) : (s.putLong a v).mac = s.mac := by
  simp [State.mac]

@[simp] theorem State.putLong_kindAt (s : State) (a : Word) (v : Word) (c : Word) : (s.putLong a v).kindAt c = s.kindAt c := by
  simp [State.kindAt]

@[simp] theorem State.putLong_accessError (s : State) (a : Word) (v : Word) (kind : AccessKind) (width : Nat) (c : Word) : (s.putLong a v).accessError kind width c = s.accessError kind width c := by
  simp [State.accessError, State.touches]

@[simp] theorem State.putLong_vectorAddr (s : State) (a : Word) (v : Word) (vec : BitVec 8) : (s.putLong a v).vectorAddr vec = s.vectorAddr vec := by
  simp [State.vectorAddr]

/-! ### When an access completes -/

theorem State.touches_eq_false (s : State) (kind : RegionKind) (width : Nat) (a : Word) :
    s.touches kind width a = false ↔ ∀ i, i < width → s.kindAt (a + BitVec.ofNat 32 i) ≠ kind := by
  simp [State.touches, List.any_eq_false]

/-- A read or a fetch completes exactly on a readable address. -/
theorem State.accessError_eq_none_of_not_write (s : State) (kind : AccessKind) (width : Nat) (a : Word)
    (hk : kind ≠ .write) : s.accessError kind width a = none ↔ s.Readable width a := by
  unfold State.accessError State.Readable
  rw [← State.touches_eq_false]
  by_cases h1 : a.toNat % width = 0
  · by_cases h2 : s.touches .absent width a = true
    · simp [h1, h2]
    · simp [h1, h2, hk]
  · simp [h1]

theorem State.accessError_read (s : State) (width : Nat) (a : Word) :
    s.accessError .read width a = none ↔ s.Readable width a :=
  s.accessError_eq_none_of_not_write .read width a (by decide)

theorem State.accessError_fetch (s : State) (width : Nat) (a : Word) :
    s.accessError .fetch width a = none ↔ s.Readable width a :=
  s.accessError_eq_none_of_not_write .fetch width a (by decide)

/-- A write completes exactly on a writable address. -/
theorem State.accessError_write (s : State) (width : Nat) (a : Word) :
    s.accessError .write width a = none ↔ s.Writable width a := by
  unfold State.accessError State.Writable State.Readable
  rw [← State.touches_eq_false, ← State.touches_eq_false]
  by_cases h1 : a.toNat % width = 0
  · by_cases h2 : s.touches .absent width a = true
    · simp [h1, h2]
    · by_cases h3 : s.touches .romFault width a = true
      · simp [h1, h2, h3]
      · simp [h1, h2, h3]
  · simp [h1]

theorem State.loadByte_of_readable {s : State} {k : Nat} {a : Word} (h : s.Readable 1 a) :
    s.loadByte k a = .ok (s.byteAt k a) := by
  rw [State.loadByte, (s.accessError_read 1 a).2 h]

theorem State.loadHalf_of_readable {s : State} {k : Nat} {a : Word} (h : s.Readable 2 a) :
    s.loadHalf k a = .ok (s.halfAt k a) := by
  rw [State.loadHalf, (s.accessError_read 2 a).2 h]

theorem State.loadLong_of_readable {s : State} {k : Nat} {a : Word} (h : s.Readable 4 a) :
    s.loadLong k a = .ok (s.longAt k a) := by
  rw [State.loadLong, (s.accessError_read 4 a).2 h]

theorem State.storeByte_of_writable {s : State} {a : Word} (v : Byte) (h : s.Writable 1 a) :
    s.storeByte a v = .ok (s.putByte a v) := by
  rw [State.storeByte, (s.accessError_write 1 a).2 h]

theorem State.storeHalf_of_writable {s : State} {a : Word} (v : Half) (h : s.Writable 2 a) :
    s.storeHalf a v = .ok (s.putHalf a v) := by
  rw [State.storeHalf, (s.accessError_write 2 a).2 h]

theorem State.storeLong_of_writable {s : State} {a : Word} (v : Word) (h : s.Writable 4 a) :
    s.storeLong a v = .ok (s.putLong a v) := by
  rw [State.storeLong, (s.accessError_write 4 a).2 h]

/-- A load that answers a value was readable, and the value is what memory or the device holds. -/
theorem State.loadLong_eq_ok {s : State} {k : Nat} {a v : Word} (h : s.loadLong k a = .ok v) :
    s.Readable 4 a ∧ v = s.longAt k a := by
  unfold State.loadLong at h
  split at h
  · cases h
  · rename_i he
    cases h
    exact ⟨(s.accessError_read 4 a).1 he, rfl⟩

theorem State.loadHalf_eq_ok {s : State} {k : Nat} {a : Word} {v : Half} (h : s.loadHalf k a = .ok v) :
    s.Readable 2 a ∧ v = s.halfAt k a := by
  unfold State.loadHalf at h
  split at h
  · cases h
  · rename_i he
    cases h
    exact ⟨(s.accessError_read 2 a).1 he, rfl⟩

theorem State.loadByte_eq_ok {s : State} {k : Nat} {a : Word} {v : Byte} (h : s.loadByte k a = .ok v) :
    s.Readable 1 a ∧ v = s.byteAt k a := by
  unfold State.loadByte at h
  split at h
  · cases h
  · rename_i he
    cases h
    exact ⟨(s.accessError_read 1 a).1 he, rfl⟩

/-- A store that answers a state was writable, and the state is the one with the bytes put. -/
theorem State.storeLong_eq_ok {s s' : State} {a v : Word} (h : s.storeLong a v = .ok s') :
    s.Writable 4 a ∧ s' = s.putLong a v := by
  unfold State.storeLong at h
  split at h
  · cases h
  · rename_i he
    cases h
    exact ⟨(s.accessError_write 4 a).1 he, rfl⟩

theorem State.storeHalf_eq_ok {s s' : State} {a : Word} {v : Half} (h : s.storeHalf a v = .ok s') :
    s.Writable 2 a ∧ s' = s.putHalf a v := by
  unfold State.storeHalf at h
  split at h
  · cases h
  · rename_i he
    cases h
    exact ⟨(s.accessError_write 2 a).1 he, rfl⟩

theorem State.storeByte_eq_ok {s s' : State} {a : Word} {v : Byte} (h : s.storeByte a v = .ok s') :
    s.Writable 1 a ∧ s' = s.putByte a v := by
  unfold State.storeByte at h
  split at h
  · cases h
  · rename_i he
    cases h
    exact ⟨(s.accessError_write 1 a).1 he, rfl⟩

/-! ### What a store does to memory -/

theorem State.putByte_mem_wf {s : State} (a : Word) (v : Byte) (h : s.mem.wf = true) :
    (s.putByte a v).mem.wf = true := by
  unfold State.putByte
  split
  · exact Memory.wf_setByte a v h
  · exact h

theorem State.putHalf_mem_wf {s : State} (a : Word) (v : Half) (h : s.mem.wf = true) :
    (s.putHalf a v).mem.wf = true :=
  State.putByte_mem_wf _ _ (State.putByte_mem_wf _ _ h)

theorem State.putLong_mem_wf {s : State} (a : Word) (v : Word) (h : s.mem.wf = true) :
    (s.putLong a v).mem.wf = true :=
  State.putByte_mem_wf _ _ (State.putByte_mem_wf _ _ (State.putByte_mem_wf _ _ (State.putByte_mem_wf _ _ h)))

theorem State.scrambleAround_mem_wf {s : State} (a : Word) (width : Nat) (h : s.mem.wf = true) :
    (s.scrambleAround a width).mem.wf = true := by
  unfold State.scrambleAround State.scrambleLong
  simp only
  repeat apply State.putByte_mem_wf
  exact h

/-- A byte read after a byte store: the byte stored where RAM took it, else what was there. -/
theorem State.byteAt_putByte {s : State} (k : Nat) (a c : Word) (v : Byte) (h : s.mem.wf = true) :
    (s.putByte a v).byteAt k c = if c = a ∧ s.kindAt a = .ram then v else s.byteAt k c := by
  by_cases hr : s.kindAt a = .ram
  · have hput : (s.putByte a v).byteAt k c =
        match s.kindAt c with
        | .device => Config.deviceByte s.tick k c.toNat
        | _ => (s.mem.setByte a.toNat v).byteAt c.toNat := by
      simp only [State.byteAt, State.putByte_kindAt, State.putByte_tick]
      have hm : (s.putByte a v).mem = s.mem.setByte a.toNat v := by
        unfold State.putByte; rw [hr]
      rw [hm]
      all_goals (cases s.kindAt c <;> rfl)
    rw [hput]
    by_cases hc : c = a
    · subst hc
      rw [hr, if_pos ⟨rfl, rfl⟩]
      simp only [Memory.byteAt_setByte _ _ _ h, if_true]
    · have hn : c.toNat ≠ a.toNat := fun e => hc (BitVec.eq_of_toNat_eq e)
      rw [if_neg (fun e => hc e.1)]
      simp only [Memory.byteAt_setByte _ _ _ h, if_neg hn]
      all_goals rfl
  · have hput : s.putByte a v = s := by
      unfold State.putByte
      split
      · rename_i he; exact absurd he hr
      · rfl
    rw [hput, if_neg (fun e => hr e.2)]

theorem State.byteAt_putByte_of_ne {s : State} (k : Nat) {a c : Word} (v : Byte) (h : s.mem.wf = true)
    (hc : c ≠ a) : (s.putByte a v).byteAt k c = s.byteAt k c := by
  rw [State.byteAt_putByte k a c v h, if_neg (fun e => hc e.1)]

theorem memKept_refl (s : State) : MemKept s s := ⟨fun _ _ => rfl, rfl⟩

/-- A byte store changes at most the byte at its address. -/
theorem State.memKeptOutside_putByte {s : State} (a : Word) (v : Byte) (h : s.mem.wf = true) :
    MemKeptOutside a 1 s (s.putByte a v) := by
  intro k b hb
  have h0 := hb 0 (by decide)
  rw [BitVec.add_zero] at h0
  exact State.byteAt_putByte_of_ne k v h h0

/-- A word store changes at most the two bytes from its address. -/
theorem State.memKeptOutside_putHalf {s : State} (a : Word) (v : Half) (h : s.mem.wf = true) :
    MemKeptOutside a 2 s (s.putHalf a v) := by
  intro k b hb
  have h0 := hb 0 (by decide)
  have h1 : b ≠ a + 1 := hb 1 (by decide)
  rw [BitVec.add_zero] at h0
  unfold State.putHalf
  rw [State.byteAt_putByte_of_ne k _ (State.putByte_mem_wf _ _ h) h1, State.byteAt_putByte_of_ne k _ h h0]

/-- A longword store changes at most the four bytes from its address. -/
theorem State.memKeptOutside_putLong {s : State} (a : Word) (v : Word) (h : s.mem.wf = true) :
    MemKeptOutside a 4 s (s.putLong a v) := by
  intro k b hb
  have h0 := hb 0 (by decide)
  have h1 : b ≠ a + 1 := hb 1 (by decide)
  have h2 : b ≠ a + 2 := hb 2 (by decide)
  have h3 : b ≠ a + 3 := hb 3 (by decide)
  rw [BitVec.add_zero] at h0
  have w1 := State.putByte_mem_wf (s := s) a (byteOf32 s.params.bigEndian v 0) h
  have w2 := State.putByte_mem_wf (a + 1) (byteOf32 s.params.bigEndian v 1) w1
  have w3 := State.putByte_mem_wf (a + 2) (byteOf32 s.params.bigEndian v 2) w2
  unfold State.putLong
  rw [State.byteAt_putByte_of_ne k _ w3 h3, State.byteAt_putByte_of_ne k _ w2 h2,
    State.byteAt_putByte_of_ne k _ w1 h1, State.byteAt_putByte_of_ne k _ h h0]

/-! ### Bytes of a word and a longword -/

theorem join16_byteOf16 (be : Bool) (h : Half) : join16 be (byteOf16 be h 0) (byteOf16 be h 1) = h := by
  cases be <;>
  · simp only [join16, byteOf16, if_true, if_false, Bool.false_eq_true]
    apply BitVec.eq_of_getLsbD_eq
    intro i hi
    simp only [BitVec.getLsbD_extractLsb', BitVec.getLsbD_append]
    grind

theorem join32_byteOf32 (be : Bool) (w : Word) :
    join32 be (byteOf32 be w 0) (byteOf32 be w 1) (byteOf32 be w 2) (byteOf32 be w 3) = w := by
  cases be <;>
  · simp only [join32, byteOf32, if_true, if_false, Bool.false_eq_true]
    apply BitVec.eq_of_getLsbD_eq
    intro i hi
    simp only [BitVec.getLsbD_extractLsb', BitVec.getLsbD_append]
    grind

theorem word_add_ne {a : Word} {i j : Word} (h : i ≠ j) : a + i ≠ a + j := by
  intro e
  apply h
  have := congrArg (· - a) e
  simpa only [BitVec.add_comm a, BitVec.add_sub_cancel] using this

/-- A byte read at the address of a byte store into RAM. -/
theorem State.byteAt_putByte_self {s : State} (k : Nat) {a : Word} (v : Byte) (h : s.mem.wf = true)
    (hr : s.kindAt a = .ram) : (s.putByte a v).byteAt k a = v := by
  rw [State.byteAt_putByte k a a v h, if_pos ⟨rfl, hr⟩]

/-- A word read at the address of a word store into RAM. -/
theorem State.halfAt_putHalf {s : State} (k : Nat) (a : Word) (v : Half) (h : s.mem.wf = true)
    (hr : s.InRam 2 a) : (s.putHalf a v).halfAt k a = v := by
  have r0 : s.kindAt a = .ram := by
    have := hr 0 (by decide); rwa [BitVec.add_zero] at this
  have r1 : s.kindAt (a + 1) = .ram := hr 1 (by decide)
  have n1 : a ≠ a + 1 := by
    intro e; have := congrArg (· - a) e; simp at this
  have w1 := State.putByte_mem_wf (s := s) a (byteOf16 s.params.bigEndian v 0) h
  have b0 : (s.putHalf a v).byteAt k a = byteOf16 s.params.bigEndian v 0 := by
    unfold State.putHalf
    rw [State.byteAt_putByte_of_ne k _ w1 n1, State.byteAt_putByte_self k _ h r0]
  have b1 : (s.putHalf a v).byteAt k (a + 1) = byteOf16 s.params.bigEndian v 1 := by
    unfold State.putHalf
    rw [State.byteAt_putByte_self k _ w1 (by simpa using r1)]
  rw [State.halfAt, b0, b1, State.putHalf_params, join16_byteOf16]

/-- A longword read at the address of a longword store into RAM. -/
theorem State.longAt_putLong {s : State} (k : Nat) (a : Word) (v : Word) (h : s.mem.wf = true)
    (hr : s.InRam 4 a) : (s.putLong a v).longAt k a = v := by
  have r0 : s.kindAt a = .ram := by
    have := hr 0 (by decide); rwa [BitVec.add_zero] at this
  have r1 : s.kindAt (a + 1) = .ram := hr 1 (by decide)
  have r2 : s.kindAt (a + 2) = .ram := hr 2 (by decide)
  have r3 : s.kindAt (a + 3) = .ram := hr 3 (by decide)
  have n (i j : Word) (hij : i ≠ j) : a + i ≠ a + j := word_add_ne hij
  have z (i : Word) (hi : 0 ≠ i) : a ≠ a + i := by
    have := n 0 i hi; simpa using this
  have w1 := State.putByte_mem_wf (s := s) a (byteOf32 s.params.bigEndian v 0) h
  have w2 := State.putByte_mem_wf (a + 1) (byteOf32 s.params.bigEndian v 1) w1
  have w3 := State.putByte_mem_wf (a + 2) (byteOf32 s.params.bigEndian v 2) w2
  have b0 : (s.putLong a v).byteAt k a = byteOf32 s.params.bigEndian v 0 := by
    unfold State.putLong
    rw [State.byteAt_putByte_of_ne k _ w3 (z 3 (by decide)), State.byteAt_putByte_of_ne k _ w2 (z 2 (by decide)),
      State.byteAt_putByte_of_ne k _ w1 (z 1 (by decide)), State.byteAt_putByte_self k _ h r0]
  have b1 : (s.putLong a v).byteAt k (a + 1) = byteOf32 s.params.bigEndian v 1 := by
    unfold State.putLong
    rw [State.byteAt_putByte_of_ne k _ w3 (n 1 3 (by decide)), State.byteAt_putByte_of_ne k _ w2 (n 1 2 (by decide)),
      State.byteAt_putByte_self k _ w1 (by simpa using r1)]
  have b2 : (s.putLong a v).byteAt k (a + 2) = byteOf32 s.params.bigEndian v 2 := by
    unfold State.putLong
    rw [State.byteAt_putByte_of_ne k _ w3 (n 2 3 (by decide)), State.byteAt_putByte_self k _ w2 (by simpa using r2)]
  have b3 : (s.putLong a v).byteAt k (a + 3) = byteOf32 s.params.bigEndian v 3 := by
    unfold State.putLong
    rw [State.byteAt_putByte_self k _ w3 (by simpa using r3)]
  rw [State.longAt, b0, b1, b2, b3, State.putLong_params, join32_byteOf32]

/-- A read of bytes that a store leaves alone. -/
theorem State.longAt_eq_of_byteAt {s t : State} (k : Nat) (a : Word) (hp : t.params = s.params)
    (h : ∀ i, i < 4 → t.byteAt k (a + BitVec.ofNat 32 i) = s.byteAt k (a + BitVec.ofNat 32 i)) :
    t.longAt k a = s.longAt k a := by
  have h0 := h 0 (by decide)
  have h1 := h 1 (by decide)
  have h2 := h 2 (by decide)
  have h3 := h 3 (by decide)
  rw [BitVec.add_zero] at h0
  simp only [State.longAt, hp]
  rw [h0]
  exact congr (congr (congrArg _ h1) h2) h3

/-! ### The addresses stored to -/

theorem State.putByte_stored_rising {s : State} (a : Word) (v : Byte) (h : s.stored.Pairwise (· < ·)) :
    (s.putByte a v).stored.Pairwise (· < ·) := by
  unfold State.putByte
  split
  · simp only
    split
    · exact h
    · exact pairwise_insertAddr _ h
  · exact h

theorem State.putByte_stored_none {s : State} (a : Word) (v : Byte) (hc : s.params.fetchCoherent = true) :
    (s.putByte a v).stored = s.stored := by
  unfold State.putByte
  split
  · simp [hc]
  · rfl

/-! ### Guards -/

@[simp] theorem guardSlot_of_none {s : State} (r : Result) (h : s.slot = .none) : guardSlot s r = r := by
  rw [guardSlot, h]

theorem guardSlot_of_ne_none {s : State} (r : Result) (h : s.slot ≠ .none) : guardSlot s r = raiseIllegal s := by
  unfold guardSlot
  split
  · rename_i he; exact absurd he h
  · rfl

@[simp] theorem guardFpu_of_running {s : State} (r : Result) (h : s.fpuStopped = false) : guardFpu s r = r := by
  simp [guardFpu, h]

@[simp] theorem guardFpu_of_stopped {s : State} (r : Result) (h : s.fpuStopped = true) :
    guardFpu s r = raiseIllegal s := by
  simp [guardFpu, h]

/-! ### Taking an exception -/

theorem State.Readable.of_params {s t : State} {width : Nat} {a : Word} (h : s.Readable width a)
    (hp : t.params = s.params) : t.Readable width a := by
  simpa [State.Readable, State.kindAt, hp] using h

theorem State.Writable.of_params {s t : State} {width : Nat} {a : Word} (h : s.Writable width a)
    (hp : t.params = s.params) : t.Writable width a := by
  simpa [State.Writable, State.Readable, State.kindAt, hp] using h

/-- Memory and the store record after the two pushes of an exception entry. -/
def State.pushed (s : State) (stackedPc : Word) : State :=
  (s.putLong (s.reg spNum - 4) s.sr).putLong (s.reg spNum - 8) stackedPc

/-- The state an exception entry leads to when its accesses complete. -/
def State.entered (s : State) (vector : BitVec 8) (stackedPc : Word) (level : Option (BitVec 4)) : State :=
  let s3 := (s.pushed stackedPc).setReg spNum (s.reg spNum - 8)
  { (match level with
      | some l => s3.setImask l
      | none => s3) with
    pc := (s.pushed stackedPc).longAt 3 (s.vectorAddr vector), slot := .none, inhibit := false, proc := .run }

/-- What an exception entry does when its accesses complete. -/
theorem enterException_of_ready {s : State} {vector : BitVec 8} {stackedPc : Word} {level : Option (BitVec 4)}
    (h : s.EntryReady vector) :
    enterException vector stackedPc level s = .next (s.entered vector stackedPc level) := by
  obtain ⟨h1, h2, h3⟩ := h
  unfold enterException
  rw [State.storeLong_of_writable _ h1]
  simp only
  rw [State.storeLong_of_writable _ (h2.of_params (State.putLong_params _ _ _))]
  simp only
  rw [State.loadLong_of_readable (h3.of_params (by simp))]
  rfl

/-- Everything an exception entry can do: with a next state, its accesses completed. -/
theorem enterException_next {s t : State} {vector : BitVec 8} {stackedPc : Word} {level : Option (BitVec 4)}
    (h : enterException vector stackedPc level s = .next t) :
    s.EntryReady vector ∧ t = s.entered vector stackedPc level := by
  unfold enterException at h
  split at h
  · cases h
  · rename_i s1 e1
    obtain ⟨h1, rfl⟩ := State.storeLong_eq_ok e1
    split at h
    · cases h
    · rename_i s2 e2
      obtain ⟨h2, rfl⟩ := State.storeLong_eq_ok e2
      split at h
      · cases h
      · rename_i v e3
        obtain ⟨h3, rfl⟩ := State.loadLong_eq_ok e3
        cases h
        exact ⟨⟨h1, h2.of_params (by simp), h3.of_params (by simp)⟩, rfl⟩

@[simp] theorem State.entered_pc (s : State) (v : BitVec 8) (spc : Word) (l : Option (BitVec 4)) :
    (s.entered v spc l).pc = (s.pushed spc).longAt 3 (s.vectorAddr v) := by
  simp only [State.entered]

@[simp] theorem State.entered_slot (s : State) (v : BitVec 8) (spc : Word) (l : Option (BitVec 4)) :
    (s.entered v spc l).slot = .none := rfl

@[simp] theorem State.entered_inhibit (s : State) (v : BitVec 8) (spc : Word) (l : Option (BitVec 4)) :
    (s.entered v spc l).inhibit = false := rfl

@[simp] theorem State.entered_proc (s : State) (v : BitVec 8) (spc : Word) (l : Option (BitVec 4)) :
    (s.entered v spc l).proc = .run := rfl

@[simp] theorem State.entered_reg (s : State) (v : BitVec 8) (spc : Word) (l : Option (BitVec 4)) (r : RegNum) :
    (s.entered v spc l).reg r = if r = spNum then s.reg spNum - 8 else s.reg r := by
  have : (s.entered v spc l).reg r = ((s.pushed spc).setReg spNum (s.reg spNum - 8)).reg r := by
    cases l <;> simp only [State.entered, State.reg, State.setImask_regs]
  rw [this, State.reg_setReg]
  simp [State.pushed]

theorem State.entered_sr_none (s : State) (v : BitVec 8) (spc : Word) : (s.entered v spc none).sr = s.sr := by
  simp [State.entered, State.pushed]

theorem State.entered_sr_some (s : State) (v : BitVec 8) (spc : Word) (l : BitVec 4) :
    (s.entered v spc (some l)).sr = (s.setImask l).sr := by
  simp [State.entered, State.pushed]

@[simp] theorem State.entered_gbr (s : State) (v : BitVec 8) (spc : Word) (l : Option (BitVec 4)) :
    (s.entered v spc l).gbr = s.gbr := by
  cases l <;> simp only [State.entered, State.pushed, State.setImask_gbr, State.setReg_gbr, State.putLong_gbr]

@[simp] theorem State.entered_vbr (s : State) (v : BitVec 8) (spc : Word) (l : Option (BitVec 4)) :
    (s.entered v spc l).vbr = s.vbr := by
  cases l <;> simp only [State.entered, State.pushed, State.setImask_vbr, State.setReg_vbr, State.putLong_vbr]

@[simp] theorem State.entered_mach (s : State) (v : BitVec 8) (spc : Word) (l : Option (BitVec 4)) :
    (s.entered v spc l).mach = s.mach := by
  cases l <;> simp only [State.entered, State.pushed, State.setImask_mach, State.setReg_mach, State.putLong_mach]

@[simp] theorem State.entered_macl (s : State) (v : BitVec 8) (spc : Word) (l : Option (BitVec 4)) :
    (s.entered v spc l).macl = s.macl := by
  cases l <;> simp only [State.entered, State.pushed, State.setImask_macl, State.setReg_macl, State.putLong_macl]

@[simp] theorem State.entered_pr (s : State) (v : BitVec 8) (spc : Word) (l : Option (BitVec 4)) :
    (s.entered v spc l).pr = s.pr := by
  cases l <;> simp only [State.entered, State.pushed, State.setImask_pr, State.setReg_pr, State.putLong_pr]

@[simp] theorem State.entered_fregs (s : State) (v : BitVec 8) (spc : Word) (l : Option (BitVec 4)) :
    (s.entered v spc l).fregs = s.fregs := by
  cases l <;> simp only [State.entered, State.pushed, State.setImask_fregs, State.setReg_fregs, State.putLong_fregs]

@[simp] theorem State.entered_fpul (s : State) (v : BitVec 8) (spc : Word) (l : Option (BitVec 4)) :
    (s.entered v spc l).fpul = s.fpul := by
  cases l <;> simp only [State.entered, State.pushed, State.setImask_fpul, State.setReg_fpul, State.putLong_fpul]

@[simp] theorem State.entered_fpscr (s : State) (v : BitVec 8) (spc : Word) (l : Option (BitVec 4)) :
    (s.entered v spc l).fpscr = s.fpscr := by
  cases l <;> simp only [State.entered, State.pushed, State.setImask_fpscr, State.setReg_fpscr, State.putLong_fpscr]

@[simp] theorem State.entered_fpuStopped (s : State) (v : BitVec 8) (spc : Word) (l : Option (BitVec 4)) :
    (s.entered v spc l).fpuStopped = s.fpuStopped := by
  cases l <;> simp only [State.entered, State.pushed, State.setImask_fpuStopped, State.setReg_fpuStopped, State.putLong_fpuStopped]

@[simp] theorem State.entered_params (s : State) (v : BitVec 8) (spc : Word) (l : Option (BitVec 4)) :
    (s.entered v spc l).params = s.params := by
  cases l <;> simp only [State.entered, State.pushed, State.setImask_params, State.setReg_params, State.putLong_params]

@[simp] theorem State.entered_inputs (s : State) (v : BitVec 8) (spc : Word) (l : Option (BitVec 4)) :
    (s.entered v spc l).inputs = s.inputs := by
  cases l <;> simp only [State.entered, State.pushed, State.setImask_inputs, State.setReg_inputs, State.putLong_inputs]

@[simp] theorem State.entered_tick (s : State) (v : BitVec 8) (spc : Word) (l : Option (BitVec 4)) :
    (s.entered v spc l).tick = s.tick := by
  cases l <;> simp only [State.entered, State.pushed, State.setImask_tick, State.setReg_tick, State.putLong_tick]

theorem State.entered_mem (s : State) (v : BitVec 8) (spc : Word) (l : Option (BitVec 4)) :
    (s.entered v spc l).mem = (s.pushed spc).mem := by
  cases l <;> simp only [State.entered, State.setImask_mem, State.setReg_mem]

theorem State.entered_stored (s : State) (v : BitVec 8) (spc : Word) (l : Option (BitVec 4)) :
    (s.entered v spc l).stored = (s.pushed spc).stored := by
  cases l <;> simp only [State.entered, State.setImask_stored, State.setReg_stored]

@[simp] theorem State.entered_freg (s : State) (v : BitVec 8) (spc : Word) (l : Option (BitVec 4)) (r : FRegNum) :
    (s.entered v spc l).freg r = s.freg r := by
  simp only [State.freg, State.entered_fregs]

/-! ### MAC.L and MAC.W between their two reads -/

@[simp] theorem State.afterFirstMacRead_pc (s : State) (n : RegNum) (size : Word) :
    (s.afterFirstMacRead n size).pc = s.pc := by
  unfold State.afterFirstMacRead; split <;> rfl

@[simp] theorem State.afterFirstMacRead_sr (s : State) (n : RegNum) (size : Word) :
    (s.afterFirstMacRead n size).sr = s.sr := by
  unfold State.afterFirstMacRead; split <;> rfl

@[simp] theorem State.afterFirstMacRead_gbr (s : State) (n : RegNum) (size : Word) :
    (s.afterFirstMacRead n size).gbr = s.gbr := by
  unfold State.afterFirstMacRead; split <;> rfl

@[simp] theorem State.afterFirstMacRead_vbr (s : State) (n : RegNum) (size : Word) :
    (s.afterFirstMacRead n size).vbr = s.vbr := by
  unfold State.afterFirstMacRead; split <;> rfl

@[simp] theorem State.afterFirstMacRead_mach (s : State) (n : RegNum) (size : Word) :
    (s.afterFirstMacRead n size).mach = s.mach := by
  unfold State.afterFirstMacRead; split <;> rfl

@[simp] theorem State.afterFirstMacRead_macl (s : State) (n : RegNum) (size : Word) :
    (s.afterFirstMacRead n size).macl = s.macl := by
  unfold State.afterFirstMacRead; split <;> rfl

@[simp] theorem State.afterFirstMacRead_pr (s : State) (n : RegNum) (size : Word) :
    (s.afterFirstMacRead n size).pr = s.pr := by
  unfold State.afterFirstMacRead; split <;> rfl

@[simp] theorem State.afterFirstMacRead_fregs (s : State) (n : RegNum) (size : Word) :
    (s.afterFirstMacRead n size).fregs = s.fregs := by
  unfold State.afterFirstMacRead; split <;> rfl

@[simp] theorem State.afterFirstMacRead_fpul (s : State) (n : RegNum) (size : Word) :
    (s.afterFirstMacRead n size).fpul = s.fpul := by
  unfold State.afterFirstMacRead; split <;> rfl

@[simp] theorem State.afterFirstMacRead_fpscr (s : State) (n : RegNum) (size : Word) :
    (s.afterFirstMacRead n size).fpscr = s.fpscr := by
  unfold State.afterFirstMacRead; split <;> rfl

@[simp] theorem State.afterFirstMacRead_mem (s : State) (n : RegNum) (size : Word) :
    (s.afterFirstMacRead n size).mem = s.mem := by
  unfold State.afterFirstMacRead; split <;> rfl

@[simp] theorem State.afterFirstMacRead_slot (s : State) (n : RegNum) (size : Word) :
    (s.afterFirstMacRead n size).slot = s.slot := by
  unfold State.afterFirstMacRead; split <;> rfl

@[simp] theorem State.afterFirstMacRead_inhibit (s : State) (n : RegNum) (size : Word) :
    (s.afterFirstMacRead n size).inhibit = s.inhibit := by
  unfold State.afterFirstMacRead; split <;> rfl

@[simp] theorem State.afterFirstMacRead_proc (s : State) (n : RegNum) (size : Word) :
    (s.afterFirstMacRead n size).proc = s.proc := by
  unfold State.afterFirstMacRead; split <;> rfl

@[simp] theorem State.afterFirstMacRead_fpuStopped (s : State) (n : RegNum) (size : Word) :
    (s.afterFirstMacRead n size).fpuStopped = s.fpuStopped := by
  unfold State.afterFirstMacRead; split <;> rfl

@[simp] theorem State.afterFirstMacRead_params (s : State) (n : RegNum) (size : Word) :
    (s.afterFirstMacRead n size).params = s.params := by
  unfold State.afterFirstMacRead; split <;> rfl

@[simp] theorem State.afterFirstMacRead_inputs (s : State) (n : RegNum) (size : Word) :
    (s.afterFirstMacRead n size).inputs = s.inputs := by
  unfold State.afterFirstMacRead; split <;> rfl

@[simp] theorem State.afterFirstMacRead_stored (s : State) (n : RegNum) (size : Word) :
    (s.afterFirstMacRead n size).stored = s.stored := by
  unfold State.afterFirstMacRead; split <;> rfl

@[simp] theorem State.afterFirstMacRead_tick (s : State) (n : RegNum) (size : Word) :
    (s.afterFirstMacRead n size).tick = s.tick := by
  unfold State.afterFirstMacRead; split <;> rfl

end Sys2Proof.Machine
end

