-- ==== Sys2Proof/Laws/Outcomes.lean ====
section
/-! SUPPORT. Properties of every next state an outcome may be: one lemma per shared operation, so that a statement about
all instructions is proved without unfolding the operations. -/

namespace Sys2Proof.Machine

/-- Where the outcome is a next state, `P` holds of it. -/
def Leads (P : State → Prop) (r : Result) : Prop := ∀ t, r = .next t → P t

theorem Leads.elim {P : State → Prop} {r : Result} {t : State} (h : Leads P r) (e : r = .next t) : P t := h t e

theorem leads_next {P : State → Prop} {t : State} (h : P t) : Leads P (.next t) := by
  intro u e; cases e; exact h

theorem leads_fault (P : State → Prop) (f : Fault) : Leads P (.fault f) := by
  intro u e; cases e

theorem leads_refused (P : State → Prop) (r : Refusal) : Leads P (.refused r) := by
  intro u e; cases e

theorem leads_finish {P : State → Prop} {s : State} (h : P s.advance) : Leads P (finish s) := leads_next h

theorem leads_finishInhibit {P : State → Prop} {s : State} (h : P { s.advance with inhibit := true }) :
    Leads P (finishInhibit s) := leads_next h

theorem leads_jumpTo {P : State → Prop} {target : Word} {s : State}
    (h : P { s with pc := target, slot := .none, inhibit := false }) : Leads P (jumpTo target s) := leads_next h

theorem leads_delayedBranch {P : State → Prop} {target : Word} {s : State}
    (h : P { s with pc := s.pc + 2, slot := .pending target, inhibit := false }) :
    Leads P (delayedBranch target s) := leads_next h

theorem leads_untakenBranch {P : State → Prop} {s : State}
    (h : P { s with
      pc := s.pc + 2, slot := if s.params.untakenSlotIsSlot then .untaken else .none, inhibit := false }) :
    Leads P (untakenBranch s) := leads_next h

/-- An exception entry leads, if anywhere, to the entered state. -/
theorem leads_enterException {P : State → Prop} {vector : BitVec 8} {stackedPc : Word} {level : Option (BitVec 4)}
    {s : State} (h : s.EntryReady vector → P (s.entered vector stackedPc level)) :
    Leads P (enterException vector stackedPc level s) := by
  intro t e
  obtain ⟨hr, rfl⟩ := enterException_next e
  exact h hr

theorem leads_raiseIllegal {P : State → Prop} {s : State} (h : ∀ v p, P (s.entered v p none)) :
    Leads P (raiseIllegal s) := leads_enterException fun _ => h _ _

theorem leads_raiseFpu {P : State → Prop} {s : State} (h : ∀ v p, P (s.entered v p none)) :
    Leads P (raiseFpu s) := leads_enterException fun _ => h _ _

/-- A failed access leads to an entered state only where a stacked PC for address errors is given; after a write the
bytes around it are unknown. -/
theorem leads_raiseMem {P : State → Prop} {e : MemErr} {s : State}
    (h : s.params.stackedPcAddressError ≠ none → ∀ v p, P (s.entered v p none))
    (hw : s.params.stackedPcAddressError ≠ none → ∀ a width v p, P ((s.scrambleAround a width).entered v p none)) :
    Leads P (raiseMem e s) := by
  unfold raiseMem
  split
  · rename_i hp
    have hp' : s.params.stackedPcAddressError ≠ none := by rw [hp]; exact Option.some_ne_none _
    refine leads_enterException fun _ => ?_
    split
    · exact hw hp' _ _ _ _
    · exact h hp' _ _
  · exact leads_fault _ _

theorem leads_withLoad {P : State → Prop} {α : Type} {loaded : Except MemErr α} {s : State} {k : α → Result}
    (hk : ∀ v, loaded = .ok v → Leads P (k v)) (he : ∀ e, Leads P (raiseMem e s)) :
    Leads P (withLoad loaded s k) := by
  unfold withLoad
  split
  · exact hk _ rfl
  · exact he _

theorem leads_withStore {P : State → Prop} {stored : Except MemErr State} {s : State} {k : State → Result}
    (hk : ∀ s', stored = .ok s' → Leads P (k s')) (he : ∀ e, Leads P (raiseMem e s)) :
    Leads P (withStore stored s k) := by
  unfold withStore
  split
  · exact hk _ rfl
  · exact he _

theorem leads_storeByte {P : State → Prop} {s s0 : State} {a : Word} {v : Byte} {k : State → Result}
    (hk : Leads P (k (s.putByte a v))) (he : ∀ e, Leads P (raiseMem e s0)) :
    Leads P (withStore (s.storeByte a v) s0 k) :=
  leads_withStore (fun _ e => (State.storeByte_eq_ok e).2 ▸ hk) he

theorem leads_storeHalf {P : State → Prop} {s s0 : State} {a : Word} {v : Half} {k : State → Result}
    (hk : Leads P (k (s.putHalf a v))) (he : ∀ e, Leads P (raiseMem e s0)) :
    Leads P (withStore (s.storeHalf a v) s0 k) :=
  leads_withStore (fun _ e => (State.storeHalf_eq_ok e).2 ▸ hk) he

theorem leads_storeLong {P : State → Prop} {s s0 : State} {a v : Word} {k : State → Result}
    (hk : Leads P (k (s.putLong a v))) (he : ∀ e, Leads P (raiseMem e s0)) :
    Leads P (withStore (s.storeLong a v) s0 k) :=
  leads_withStore (fun _ e => (State.storeLong_eq_ok e).2 ▸ hk) he

theorem leads_guardSlot {P : State → Prop} {s : State} {r : Result} (hr : s.slot = .none → Leads P r)
    (hi : Leads P (raiseIllegal s)) : Leads P (guardSlot s r) := by
  unfold guardSlot
  split
  · rename_i h; exact hr h
  · exact hi

theorem leads_guardFpu {P : State → Prop} {s : State} {r : Result} (hr : s.fpuStopped = false → Leads P r)
    (hi : Leads P (raiseIllegal s)) : Leads P (guardFpu s r) := by
  unfold guardFpu
  split
  · exact hi
  · rename_i h; exact hr (by simpa using h)

/-- A return from an exception pops PC and SR. -/
theorem leads_returnFromException {P : State → Prop} {s : State}
    (h : ∀ newPc newSr, P { (s.setReg spNum (s.reg spNum + 8)).writeSr newSr with
      pc := s.pc + 2, slot := .pending newPc, inhibit := false }) : Leads P (returnFromException s) := by
  unfold returnFromException
  split
  · exact leads_fault _ _
  · split
    · exact leads_fault _ _
    · exact leads_next (h _ _)

end Sys2Proof.Machine
end

