-- ==== Sys2Proof/Laws/Boundary.lean ====
section
/-! SUPPORT. What one boundary can do: reset, an accepted interrupt, sleep, or the instruction at PC. -/

namespace Sys2Proof.Machine

/-! ### Reset -/

theorem State.resetRegisters_vectorAddr (s : State) (v : BitVec 8) :
    s.resetRegisters.vectorAddr v = v.setWidth 32 * 4 := BitVec.zero_add _

theorem State.resetRegisters_byteAt (s : State) (k : Nat) (a : Word) :
    s.resetRegisters.byteAt k a = s.byteAt k a := rfl

theorem State.resetRegisters_longAt (s : State) (k : Nat) (a : Word) :
    s.resetRegisters.longAt k a = s.longAt k a := rfl

/-- What a reset input does when the two entries of the vector table can be read. -/
theorem enterReset_of_readable {s : State} {kind : ResetKind}
    (hp : s.Readable 4 ((resetPcEntry s.params kind).setWidth 32 * 4))
    (hs : s.Readable 4 ((resetSpEntry s.params kind).setWidth 32 * 4)) :
    enterReset kind s = .next { s.resetRegisters.setReg spNum
      (s.longAt 2 ((resetSpEntry s.params kind).setWidth 32 * 4)) with
        pc := s.longAt 1 ((resetPcEntry s.params kind).setWidth 32 * 4) } := by
  unfold enterReset
  simp only [State.resetRegisters_vectorAddr]
  rw [State.loadLong_of_readable (hp.of_params (t := s.resetRegisters) rfl)]
  simp only
  rw [State.loadLong_of_readable (hs.of_params (t := s.resetRegisters) rfl)]
  rfl

/-- Everything a reset input can do: with a next state, PC and R15 were read and the registers reset. -/
theorem enterReset_next {s t : State} {kind : ResetKind} (h : enterReset kind s = .next t) :
    ∃ pc sp, t = { s.resetRegisters.setReg spNum sp with pc := pc } := by
  unfold enterReset at h
  simp only at h
  generalize State.loadLong _ 1 _ = a at h
  generalize State.loadLong _ 2 _ = b at h
  cases a with
  | error e => cases h
  | ok pc =>
    cases b with
    | error e => cases h
    | ok sp => cases h; exact ⟨pc, sp, rfl⟩

/-! ### Which of its cases a step is -/

theorem step_of_reset {s : State} {kind : ResetKind} (h : s.inputs.head? = some (.reset kind)) :
    step s = enterReset kind s.beginStep := by
  simp only [step, stepWith, h]

theorem step_of_accepted {s : State} {irq : IrqRequest} (h : s.inputs.head? = some (.request irq))
    (ha : s.accepts irq = true) : step s = enterInterrupt irq s.beginStep := by
  simp only [step, stepWith, h, ha, if_true]

theorem step_of_nothingAccepted {s : State} (h : s.NothingAccepted) : step s = sleepOrRun exec s.beginStep := by
  unfold State.NothingAccepted at h
  cases hh : s.inputs.head? with
  | none => simp only [step, stepWith, hh]
  | some input =>
    rw [hh] at h
    cases input with
    | quiet => simp only [step, stepWith, hh]
    | reset kind => exact h.elim
    | request irq => simp [step, stepWith, hh, h]

theorem sleepOrRun_of_run {s : State} (h : s.proc = .run) : sleepOrRun exec s = runInstr exec s := by
  rw [sleepOrRun, h]

theorem sleepOrRun_of_sleep {s : State} (h : s.proc = .sleep) : sleepOrRun exec s = .next s := by
  rw [sleepOrRun, h]

/-- A fetch that completes, of an address the run has not stored to. -/
theorem runInstr_of_readable {s : State} (hr : s.Readable 2 s.pc) (hc : s.staleCode = false) :
    runInstr exec s = match decode (s.halfAt 0 s.pc) with
      | .ok i => exec i s
      | .error _ => raiseIllegal s := by
  unfold runInstr
  rw [(State.accessError_fetch s 2 s.pc).2 hr]
  simp only [hc, Bool.false_eq_true, if_false]
  all_goals (cases decode (s.halfAt 0 s.pc) <;> rfl)

/-- Everything a boundary without reset or interrupt can lead to. -/
theorem leads_sleepOrRun {P : State → Prop} {s : State} (hsleep : s.proc = .sleep → P s)
    (hrun : s.proc = .run → ∀ i, Leads P (exec i s)) (hi : s.proc = .run → Leads P (raiseIllegal s))
    (he : s.proc = .run → ∀ e, Leads P (raiseMem e s)) : Leads P (sleepOrRun exec s) := by
  unfold sleepOrRun
  split
  · rename_i h; exact leads_next (hsleep h)
  · rename_i h
    unfold runInstr
    split
    · exact he h _
    · split
      · exact leads_refused _ _
      · split
        · exact hrun h _
        · exact hi h

/-- Everything a step can lead to. -/
theorem leads_step {P : State → Prop} {s : State}
    (hr : ∀ kind, s.inputs.head? = some (.reset kind) → Leads P (enterReset kind s.beginStep))
    (hq : ∀ irq, s.inputs.head? = some (.request irq) → s.accepts irq = true →
      Leads P (enterInterrupt irq s.beginStep))
    (hn : Leads P (sleepOrRun exec s.beginStep)) : Leads P (step s) := by
  unfold step stepWith
  split
  · exact hr _ (by assumption)
  · split
    · exact hq _ (by assumption) (by assumption)
    · exact hn
  · exact hn

end Sys2Proof.Machine
end

