-- ==== Sys2Proof/Laws/Decode.lean ====
section
/-! SUPPORT. Lemmas about codes: the four nibbles of a code come back from it, and masks act nibble by nibble. -/

namespace Sys2Proof

@[simp] theorem nibbles_extract_12 (a n m d : BitVec 4) : (nibbles a n m d).extractLsb' 12 4 = a := by
  apply BitVec.eq_of_getLsbD_eq
  intro i hi
  simp only [nibbles, BitVec.getLsbD_extractLsb', BitVec.getLsbD_append]
  grind

@[simp] theorem nibbles_extract_8 (a n m d : BitVec 4) : (nibbles a n m d).extractLsb' 8 4 = n := by
  apply BitVec.eq_of_getLsbD_eq
  intro i hi
  simp only [nibbles, BitVec.getLsbD_extractLsb', BitVec.getLsbD_append]
  grind

@[simp] theorem nibbles_extract_4 (a n m d : BitVec 4) : (nibbles a n m d).extractLsb' 4 4 = m := by
  apply BitVec.eq_of_getLsbD_eq
  intro i hi
  simp only [nibbles, BitVec.getLsbD_extractLsb', BitVec.getLsbD_append]
  grind

@[simp] theorem nibbles_extract_0 (a n m d : BitVec 4) : (nibbles a n m d).extractLsb' 0 4 = d := by
  apply BitVec.eq_of_getLsbD_eq
  intro i hi
  simp only [nibbles, BitVec.getLsbD_extractLsb', BitVec.getLsbD_append]
  grind

/-- A byte is its two nibbles. -/
theorem byte_eq_nibbles (b : BitVec 8) : b.extractLsb' 4 4 ++ b.extractLsb' 0 4 = b := by
  apply BitVec.eq_of_getLsbD_eq
  intro i hi
  simp only [BitVec.getLsbD_extractLsb', BitVec.getLsbD_append]
  grind

/-- A 12-bit field is its three nibbles. -/
theorem disp12_eq_nibbles (b : BitVec 12) :
    b.extractLsb' 8 4 ++ b.extractLsb' 4 4 ++ b.extractLsb' 0 4 = b := by
  apply BitVec.eq_of_getLsbD_eq
  intro i hi
  simp only [BitVec.getLsbD_extractLsb', BitVec.getLsbD_append]
  grind

/-- A code is its four nibbles. -/
theorem half_eq_nibbles (w : Half) :
    nibbles (w.extractLsb' 12 4) (w.extractLsb' 8 4) (w.extractLsb' 4 4) (w.extractLsb' 0 4) = w := by
  apply BitVec.eq_of_getLsbD_eq
  intro i hi
  simp only [nibbles, BitVec.getLsbD_extractLsb', BitVec.getLsbD_append]
  grind

/-- A mask acts on the four nibbles of a code apart. -/
theorem nibbles_and (a n m d a' n' m' d' : BitVec 4) :
    nibbles a n m d &&& nibbles a' n' m' d' = nibbles (a &&& a') (n &&& n') (m &&& m') (d &&& d') := by
  apply BitVec.eq_of_getLsbD_eq
  intro i hi
  simp only [nibbles, BitVec.getLsbD_and, BitVec.getLsbD_append]
  grind

theorem nibble_and_ones (x : BitVec 4) : x &&& 0xF = x := BitVec.and_allOnes

theorem nibble_and_zero (x : BitVec 4) : x &&& 0 = 0 := BitVec.and_zero

/-- A row whose first and last nibble are fixed (format nm of the opcode table). -/
theorem mask_first_last (a n m d : BitVec 4) : nibbles a n m d &&& nibbles 0xF 0 0 0xF = nibbles a 0 0 d := by
  rw [nibbles_and, nibble_and_ones, nibble_and_ones, nibble_and_zero, nibble_and_zero]

/-- A row whose first nibble is fixed (formats nd8, ni, d12, nmd). -/
theorem mask_first (a n m d : BitVec 4) : nibbles a n m d &&& nibbles 0xF 0 0 0 = nibbles a 0 0 0 := by
  rw [nibbles_and, nibble_and_ones, nibble_and_zero, nibble_and_zero, nibble_and_zero]

/-- A row whose first two nibbles are fixed (formats d, i, nd4, md). -/
theorem mask_first_two (a n m d : BitVec 4) : nibbles a n m d &&& nibbles 0xF 0xF 0 0 = nibbles a n 0 0 := by
  rw [nibbles_and, nibble_and_ones, nibble_and_ones, nibble_and_zero, nibble_and_zero]

/-- A row with one register field in its second nibble (formats n and m). -/
theorem mask_all_but_second (a n m d : BitVec 4) :
    nibbles a n m d &&& nibbles 0xF 0 0xF 0xF = nibbles a 0 m d := by
  rw [nibbles_and, nibble_and_ones, nibble_and_ones, nibble_and_ones, nibble_and_zero]

end Sys2Proof
end

