-- ==== Sys2Proof/Laws/Families.lean ====
section
/-! SUPPORT. What the shared shapes of the instruction families can do: one lemma per shape, in the terms of
`Safety.lean`. -/

namespace Sys2Proof.Machine

/-! ### Ending an instruction -/

/-- An update of one general register, then the end of the instruction. -/
theorem finish_wroteReg (n : RegNum) (v : Word) (s : State) :
    ∃ t, finish (s.setReg n v) = .next t ∧ WroteReg n v s t := by
  refine ⟨_, rfl, ⟨by simp, ⟨?_, by simp, ?_, by simp, by simp, by simp, by simp, by simp⟩, ⟨by simp, by simp⟩,
    ⟨by simp, by simp, by simp, by simp⟩⟩⟩
  · intro r hr
    simp only [State.advance_reg, State.reg_setReg]
    rw [if_neg (by simpa using hr)]
  · intro r _; cases r <;> rfl

/-- An update of one general register and T, then the end of the instruction. -/
theorem finish_wroteRegT (n : RegNum) (v : Word) (b : Bool) (s : State) :
    ∃ t, finish ((s.setReg n v).setT b) = .next t ∧ WroteRegT n v b s t := by
  refine ⟨_, rfl, ⟨by simp, by simp, ⟨?_, by simp, ?_, ?_, by simp, by simp, by simp, by simp⟩, ⟨by simp, by simp⟩,
    ⟨by simp, by simp, by simp, by simp⟩⟩⟩
  · intro r hr
    simp only [State.advance_reg, State.setT_reg, State.reg_setReg]
    rw [if_neg (by simpa using hr)]
  · intro r _; cases r <;> rfl
  · rw [State.advance_sr]; exact State.sr_setT_and _ b

/-- An update of T, then the end of the instruction. -/
theorem finish_wroteT (b : Bool) (s : State) : ∃ t, finish (s.setT b) = .next t ∧ WroteT b s t := by
  refine ⟨_, rfl, ⟨by simp, ⟨by simp, by simp, ?_, ?_, by simp, by simp, by simp, by simp⟩, ⟨by simp, by simp⟩,
    ⟨by simp, by simp, by simp, by simp⟩⟩⟩
  · intro r _; cases r <;> rfl
  · rw [State.advance_sr]; exact State.sr_setT_and _ b

/-- An update of one floating-point register, then the end of the instruction. -/
theorem finish_wroteFreg (n : FRegNum) (v : Word) (s : State) :
    ∃ t, finish (s.setFreg n v) = .next t ∧ WroteFreg n v s t := by
  refine ⟨_, rfl, ⟨by simp, ⟨by simp, ?_, ?_, by simp, by simp, by simp, by simp, by simp⟩, ⟨by simp, by simp⟩,
    ⟨by simp, by simp, by simp, by simp⟩⟩⟩
  · intro r hr
    simp only [State.advance_freg, State.freg_setFreg]
    rw [if_neg (by simpa using hr)]
  · intro r _; cases r <;> rfl

/-! ### Loads into one register -/

theorem withLoad_ok {α : Type} (v : α) (s : State) (k : α → Result) : withLoad (.ok v) s k = k v := rfl

theorem withStore_ok (s' s : State) (k : State → Result) : withStore (.ok s') s k = k s' := rfl

theorem loadByteTo_of_readable {n : RegNum} {a : Word} {s : State} (h : s.Readable 1 a) :
    loadByteTo n a s = finish (s.setReg n (sext8 (s.byteAt 1 a))) := by
  rw [loadByteTo, State.loadByte_of_readable h, withLoad_ok]

theorem loadHalfTo_of_readable {n : RegNum} {a : Word} {s : State} (h : s.Readable 2 a) :
    loadHalfTo n a s = finish (s.setReg n (sext16 (s.halfAt 1 a))) := by
  rw [loadHalfTo, State.loadHalf_of_readable h, withLoad_ok]

theorem loadLongTo_of_readable {n : RegNum} {a : Word} {s : State} (h : s.Readable 4 a) :
    loadLongTo n a s = finish (s.setReg n (s.longAt 1 a)) := by
  rw [loadLongTo, State.loadLong_of_readable h, withLoad_ok]

theorem loadFregTo_of_readable {n : FRegNum} {a : Word} {s : State} (h : s.Readable 4 a) :
    loadFregTo n a s = finish (s.setFreg n (s.longAt 1 a)) := by
  rw [loadFregTo, State.loadLong_of_readable h, withLoad_ok]

/-! ### Stores -/

/-- A store of one byte, then the end of the instruction. -/
theorem storeByteFrom_stored {v a : Word} {s : State} (hm : s.mem.wf = true) (h : s.Writable 1 a) :
    ∃ t, storeByteFrom v a s = .next t ∧ Stored 1 a [] false s t ∧
      (s.InRam 1 a → ∀ k, t.byteAt k a = lowByte v) := by
  refine ⟨(s.putByte a (lowByte v)).advance, ?_, ⟨⟨by simp, by simp, ?_, by simp, by simp, by simp, by simp, by simp⟩,
    ?_, ⟨?_, by simp, by simp, by simp⟩⟩, ?_⟩
  · rw [storeByteFrom, State.storeByte_of_writable _ h, withStore_ok, finish]
  · intro r _; cases r <;> simp [State.special]
  · intro k b hb
    rw [State.advance_byteAt]
    exact State.memKeptOutside_putByte a _ hm k b hb
  · simp [State.nextPc]
  · intro hr k
    have r0 : s.kindAt a = .ram := by
      have := hr 0 (by decide); rwa [BitVec.add_zero] at this
    rw [State.advance_byteAt, State.byteAt_putByte_self k _ hm r0]

/-- A store of one word, then the end of the instruction. -/
theorem storeHalfFrom_stored {v a : Word} {s : State} (hm : s.mem.wf = true) (h : s.Writable 2 a) :
    ∃ t, storeHalfFrom v a s = .next t ∧ Stored 2 a [] false s t ∧
      (s.InRam 2 a → ∀ k, t.halfAt k a = lowHalf v) := by
  refine ⟨(s.putHalf a (lowHalf v)).advance, ?_, ⟨⟨by simp, by simp, ?_, by simp, by simp, by simp, by simp, by simp⟩,
    ?_, ⟨?_, by simp, by simp, by simp⟩⟩, ?_⟩
  · rw [storeHalfFrom, State.storeHalf_of_writable _ h, withStore_ok, finish]
  · intro r _; cases r <;> simp [State.special]
  · intro k b hb
    rw [State.advance_byteAt]
    exact State.memKeptOutside_putHalf a _ hm k b hb
  · simp [State.nextPc]
  · intro hr k
    rw [State.advance_halfAt, State.halfAt_putHalf k a _ hm hr]

/-- A store of one longword, then the end of the instruction. -/
theorem storeLongFrom_stored {v a : Word} {s : State} (hm : s.mem.wf = true) (h : s.Writable 4 a) :
    ∃ t, storeLongFrom v a s = .next t ∧ Stored 4 a [] false s t ∧
      (s.InRam 4 a → ∀ k, t.longAt k a = v) := by
  refine ⟨(s.putLong a v).advance, ?_, ⟨⟨by simp, by simp, ?_, by simp, by simp, by simp, by simp, by simp⟩,
    ?_, ⟨?_, by simp, by simp, by simp⟩⟩, ?_⟩
  · rw [storeLongFrom, State.storeLong_of_writable _ h, withStore_ok, finish]
  · intro r _; cases r <;> simp [State.special]
  · intro k b hb
    rw [State.advance_byteAt]
    exact State.memKeptOutside_putLong a _ hm k b hb
  · simp [State.nextPc]
  · intro hr k
    rw [State.advance_longAt, State.longAt_putLong k a _ hm hr]

/-! ### Exception entry -/

theorem byteAt_congr {s t : State} (k : Nat) (a : Word) (hp : t.params = s.params) (ht : t.tick = s.tick)
    (hm : t.mem = s.mem) : t.byteAt k a = s.byteAt k a := by
  simp [State.byteAt, State.kindAt, hp, ht, hm]

theorem State.entered_byteAt (s : State) (v : BitVec 8) (spc : Word) (l : Option (BitVec 4)) (k : Nat) (a : Word) :
    (s.entered v spc l).byteAt k a = (s.pushed spc).byteAt k a :=
  byteAt_congr k a (by simp [State.pushed]) (by simp [State.pushed]) (State.entered_mem s v spc l)

theorem State.entered_longAt (s : State) (v : BitVec 8) (spc : Word) (l : Option (BitVec 4)) (k : Nat) (a : Word) :
    (s.entered v spc l).longAt k a = (s.pushed spc).longAt k a := by
  simp only [State.longAt, State.entered_byteAt, State.entered_params, State.pushed, State.putLong_params]

/-- Eight bytes below R15: the upper four are R15 - 4 onward, the lower four R15 - 8 onward. -/
theorem sub8_add (sp : Word) (i : Nat) : sp - 8 + BitVec.ofNat 32 (i + 4) = sp - 4 + BitVec.ofNat 32 i := by
  have : BitVec.ofNat 32 (i + 4) = BitVec.ofNat 32 i + 4 := by
    rw [BitVec.ofNat_add]; rfl
  rw [this]
  generalize BitVec.ofNat 32 i = x
  bv_omega

theorem State.memKeptOutside_pushed {s : State} (spc : Word) (hm : s.mem.wf = true) :
    MemKeptOutside (s.reg spNum - 8) 8 s (s.pushed spc) := by
  intro k b hb
  have w1 := State.putLong_mem_wf (s := s) (s.reg spNum - 4) s.sr hm
  unfold State.pushed
  rw [State.memKeptOutside_putLong (s.reg spNum - 8) spc w1 k b (fun i hi => hb i (by omega)),
    State.memKeptOutside_putLong (s.reg spNum - 4) s.sr hm k b
      (fun i hi => by rw [← sub8_add]; exact hb (i + 4) (by omega))]

/-- What an exception entry does when its accesses complete, in the terms of `Safety.lean`. -/
theorem enterException_took {s : State} {vector : BitVec 8} {stackedPc : Word} {level : Option (BitVec 4)}
    (hm : s.mem.wf = true) (h : s.EntryReady vector) :
    ∃ t, enterException vector stackedPc level s = .next t ∧
      TookException vector stackedPc
        (match level with
          | some l => (s.setImask l).sr
          | none => s.sr) s t := by
  have w1 := State.putLong_mem_wf (s := s) (s.reg spNum - 4) s.sr hm
  refine ⟨_, enterException_of_ready h, ⟨?_, ?_, ?_, ?_, ?_, ⟨?_, ?_, ?_, ?_, by simp, by simp, by simp, by simp⟩, ?_,
    by simp, by simp, by simp⟩⟩
  · rw [State.entered_pc, State.entered_longAt]
  · simp
  · cases level
    · exact State.entered_sr_none _ _ _
    · exact State.entered_sr_some _ _ _ _
  · intro k hr
    rw [State.entered_longAt]
    rw [← State.longAt_putLong k (s.reg spNum - 4) s.sr hm hr]
    unfold State.pushed
    apply State.longAt_eq_of_byteAt _ _ (by simp)
    intro i hi
    apply State.memKeptOutside_putLong (s.reg spNum - 8) stackedPc w1
    intro j hj e
    rw [← sub8_add] at e
    have := congrArg (· - (s.reg spNum - 8)) e
    simp only [BitVec.add_comm (s.reg spNum - 8), BitVec.add_sub_cancel] at this
    have := congrArg BitVec.toNat this
    simp only [BitVec.toNat_ofNat] at this
    omega
  · intro k hr
    rw [State.entered_longAt]
    exact State.longAt_putLong k (s.reg spNum - 8) stackedPc w1 (by simpa [State.InRam] using hr)
  · intro r hr
    rw [State.entered_reg, if_neg (by simpa using hr)]
  · intro r _
    simp [State.freg]
  · intro r _; cases r <;> simp [State.special]
  · simp
  · intro k b hb
    rw [State.entered_byteAt]
    exact State.memKeptOutside_pushed stackedPc hm k b hb

end Sys2Proof.Machine
end

