-- ==== Sys2Proof/Laws/System.lean ====
section
/-! SUPPORT. What the shared shapes of the system control and FPU-related CPU instructions can do: writes of a special
register, the interrupt-disabled ends, and the forms with an address update; and what
a misaligned or failed access does. -/

namespace Sys2Proof.Machine

/-- `t` is `s` but for special registers: every general and floating-point register, SR, the memory, the pending
branch and everything around the CPU is the same. -/
structure SameButSpecials (s t : State) : Prop where
  regs : t.regs = s.regs
  fregs : t.fregs = s.fregs
  sr : t.sr = s.sr
  fpuStopped : t.fpuStopped = s.fpuStopped
  params : t.params = s.params
  inputs : t.inputs = s.inputs
  tick : t.tick = s.tick
  mem : t.mem = s.mem
  stored : t.stored = s.stored
  nextPc : t.nextPc = s.nextPc
  proc : t.proc = s.proc

/-- Reads of a register see only the register file. -/
theorem reg_congr {s t : State} (h : t.regs = s.regs) (r : RegNum) : t.reg r = s.reg r := by
  simp only [State.reg, h]

theorem freg_congr {s t : State} (h : t.fregs = s.fregs) (r : FRegNum) : t.freg r = s.freg r := by
  simp only [State.freg, h]

/-- A write of one special register, then the end of the instruction. -/
theorem finish_wroteSpecial {r : Special} {s s' : State} {v : Word} (h : SameButSpecials s s')
    (hr : s'.special r = v) (hs : ∀ q, q ≠ r → s'.special q = s.special q) :
    ∃ t, finish s' = .next t ∧ WroteSpecial r v false s t := by
  refine ⟨_, rfl, ⟨?_, ⟨fun r _ => reg_congr h.regs r, fun r _ => freg_congr h.fregs r, fun q hq => ?_, ?_,
    h.fpuStopped, h.params, h.inputs, h.tick⟩, ⟨fun k a => byteAt_congr (s := s) k a h.params h.tick h.mem, h.stored⟩,
    ⟨h.nextPc, rfl, rfl, h.proc⟩⟩⟩
  · cases r <;> exact hr
  · have := hs q (by simpa using hq); cases q <;> exact this
  · rw [State.advance_sr, h.sr]

/-- The same for an interrupt-disabled instruction. -/
theorem finishInhibit_wroteSpecial {r : Special} {s s' : State} {v : Word} (h : SameButSpecials s s')
    (hr : s'.special r = v) (hs : ∀ q, q ≠ r → s'.special q = s.special q) :
    ∃ t, finishInhibit s' = .next t ∧ WroteSpecial r v true s t := by
  refine ⟨_, rfl, ⟨?_, ⟨fun r _ => reg_congr h.regs r, fun r _ => freg_congr h.fregs r, fun q hq => ?_, ?_,
    h.fpuStopped, h.params, h.inputs, h.tick⟩, ⟨fun k a => byteAt_congr (s := s) k a h.params h.tick h.mem, h.stored⟩,
    ⟨h.nextPc, rfl, rfl, h.proc⟩⟩⟩
  · cases r <;> exact hr
  · have := hs q (by simpa using hq); cases q <;> exact this
  · show s'.sr &&& ~~~0 = s.sr &&& ~~~0
    rw [h.sr]

/-- A write of one general register by an interrupt-disabled instruction. -/
theorem finishInhibit_wroteReg (n : RegNum) (v : Word) (s : State) :
    ∃ t, finishInhibit (s.setReg n v) = .next t ∧ t.reg n = v ∧ Frame [n] [] [] 0 s t ∧ MemKept s t ∧
      Completed true s t := by
  refine ⟨_, rfl, (State.reg_setReg s n n v).trans (if_pos rfl), ⟨fun r hr => ?_, fun _ _ => rfl,
    fun r _ => by cases r <;> rfl, rfl, rfl, rfl, rfl, rfl⟩, ⟨fun _ _ => rfl, rfl⟩, ⟨rfl, rfl, rfl, rfl⟩⟩
  exact (State.reg_setReg s n r v).trans (if_neg (by simpa using hr))

/-- A write of one special register and the advance of the pointer it was read through. -/
theorem finish_wroteSpecialInc {r : Special} {m : RegNum} {s s' : State} {v p : Word} (h : SameButSpecials s s')
    (hr : s'.special r = v) (hs : ∀ q, q ≠ r → s'.special q = s.special q) :
    ∃ t, finish (s'.setReg m p) = .next t ∧ t.special r = v ∧ t.reg m = p ∧ Frame [m] [] [r] 0 s t ∧ MemKept s t ∧
      Completed false s t := by
  refine ⟨_, rfl, ?_, (State.reg_setReg s' m m p).trans (if_pos rfl), ⟨fun q hq => ?_,
    fun r _ => freg_congr h.fregs r, fun q hq => ?_, ?_, h.fpuStopped, h.params, h.inputs, h.tick⟩,
    ⟨fun k a => byteAt_congr (s := s) k a h.params h.tick h.mem, h.stored⟩, ⟨h.nextPc, rfl, rfl, h.proc⟩⟩
  · cases r <;> exact hr
  · exact ((State.reg_setReg s' m q p).trans (if_neg (by simpa using hq))).trans (reg_congr h.regs q)
  · have := hs q (by simpa using hq); cases q <;> exact this
  · show s'.sr &&& ~~~0 = s.sr &&& ~~~0
    rw [h.sr]

/-- The same for an interrupt-disabled instruction. -/
theorem finishInhibit_wroteSpecialInc {r : Special} {m : RegNum} {s s' : State} {v p : Word}
    (h : SameButSpecials s s') (hr : s'.special r = v) (hs : ∀ q, q ≠ r → s'.special q = s.special q) :
    ∃ t, finishInhibit (s'.setReg m p) = .next t ∧ t.special r = v ∧ t.reg m = p ∧ Frame [m] [] [r] 0 s t ∧
      MemKept s t ∧ Completed true s t := by
  refine ⟨_, rfl, ?_, (State.reg_setReg s' m m p).trans (if_pos rfl), ⟨fun q hq => ?_,
    fun r _ => freg_congr h.fregs r, fun q hq => ?_, ?_, h.fpuStopped, h.params, h.inputs, h.tick⟩,
    ⟨fun k a => byteAt_congr (s := s) k a h.params h.tick h.mem, h.stored⟩, ⟨h.nextPc, rfl, rfl, h.proc⟩⟩
  · cases r <;> exact hr
  · exact ((State.reg_setReg s' m q p).trans (if_neg (by simpa using hq))).trans (reg_congr h.regs q)
  · have := hs q (by simpa using hq); cases q <;> exact this
  · show s'.sr &&& ~~~0 = s.sr &&& ~~~0
    rw [h.sr]

/-- A general register set after a store, with the interrupt inhibit as given. -/
theorem Stored.setReg {w : Nat} {a : Word} {s t : State} {b : Bool} (n : RegNum) (v : Word) (b' : Bool)
    (h : Stored w a [] b s t) : Stored w a [n] b' s { t.setReg n v with inhibit := b' } := by
  refine ⟨⟨fun r hr => ?_, h.frame.fregs, fun r hr => ?_, h.frame.sr, h.frame.fpuStopped, h.frame.params,
    h.frame.inputs, h.frame.tick⟩, h.memory, ⟨h.done.1, h.done.2.1, rfl, h.done.2.2.2⟩⟩
  · exact ((State.reg_setReg t n r v).trans (if_neg (by simpa using hr))).trans (h.frame.regs r (by simp))
  · have := h.frame.specials r hr; cases r <;> exact this

/-- A longword stored at Rn - 4, where Rn ends, by an instruction that is not interrupt-disabled. -/
theorem storeLongDec_stored {v : Word} {n : RegNum} {s : State} (hm : s.mem.wf = true)
    (h : s.Writable 4 (s.eaPreDec n 4)) :
    ∃ t, storeLongDec v n s = .next t ∧ Stored 4 (s.eaPreDec n 4) [n] false s t ∧ t.reg n = s.eaPreDec n 4 ∧
      (s.InRam 4 (s.eaPreDec n 4) → ∀ k, t.longAt k (s.eaPreDec n 4) = v) := by
  obtain ⟨t, h1, h2, h3⟩ := storeLongFrom_stored (v := v) hm h
  simp only [storeLongFrom, State.storeLong_of_writable _ h, withStore_ok, finish] at h1
  cases h1
  simp only [storeLongDec, State.storeLong_of_writable _ h, withStore_ok]
  exact ⟨_, rfl, h2.setReg n _ false, (State.reg_setReg _ n n _).trans (if_pos rfl), h3⟩

/-- The same by an interrupt-disabled instruction. -/
theorem storeSystemDec_stored {v : Word} {n : RegNum} {s : State} (hm : s.mem.wf = true)
    (h : s.Writable 4 (s.eaPreDec n 4)) :
    ∃ t, storeSystemDec v n s = .next t ∧ Stored 4 (s.eaPreDec n 4) [n] true s t ∧ t.reg n = s.eaPreDec n 4 ∧
      (s.InRam 4 (s.eaPreDec n 4) → ∀ k, t.longAt k (s.eaPreDec n 4) = v) := by
  obtain ⟨t, h1, h2, h3⟩ := storeLongFrom_stored (v := v) hm h
  simp only [storeLongFrom, State.storeLong_of_writable _ h, withStore_ok, finish] at h1
  cases h1
  simp only [storeSystemDec, State.storeLong_of_writable _ h, withStore_ok]
  exact ⟨_, rfl, h2.setReg n _ true, (State.reg_setReg _ n n _).trans (if_pos rfl), h3⟩

/-! ### Misaligned accesses -/

theorem State.loadHalf_misaligned {s : State} {k : Nat} {a : Word} (h : a.toNat % 2 ≠ 0) :
    s.loadHalf k a = .error (.misaligned a .read 2) := by
  unfold State.loadHalf State.accessError; rw [if_pos h]

theorem State.loadLong_misaligned {s : State} {k : Nat} {a : Word} (h : a.toNat % 4 ≠ 0) :
    s.loadLong k a = .error (.misaligned a .read 4) := by
  unfold State.loadLong State.accessError; rw [if_pos h]

theorem State.storeHalf_misaligned {s : State} {a : Word} {v : Half} (h : a.toNat % 2 ≠ 0) :
    s.storeHalf a v = .error (.misaligned a .write 2) := by
  unfold State.storeHalf State.accessError; rw [if_pos h]

theorem State.storeLong_misaligned {s : State} {a v : Word} (h : a.toNat % 4 ≠ 0) :
    s.storeLong a v = .error (.misaligned a .write 4) := by
  unfold State.storeLong State.accessError; rw [if_pos h]

theorem withLoad_error {α : Type} {s : State} {l : Except MemErr α} {k : α → Result} {e : MemErr} (h : l = .error e) :
    withLoad l s k = raiseMem e s := by
  subst h; rfl

theorem withStore_error {s : State} {l : Except MemErr State} {k : State → Result} {e : MemErr} (h : l = .error e) :
    withStore l s k = raiseMem e s := by
  subst h; rfl

/-! ### Taking the address error -/

/-- The byte `i` of an aligned longword lies in that longword. -/
theorem aligned_add_and (a : Word) {i : Nat} (hi : i < 4) :
    ((a &&& 0xFFFFFFFC) + BitVec.ofNat 32 i) &&& 0xFFFFFFFC = a &&& 0xFFFFFFFC := by
  have hz : 0xFFFFFFFC &&& BitVec.ofNat 32 i = 0#32 ∧ BitVec.ofNat 32 i &&& 0xFFFFFFFC = 0#32 := by
    have : i = 0 ∨ i = 1 ∨ i = 2 ∨ i = 3 := by omega
    rcases this with rfl | rfl | rfl | rfl <;> decide
  have hd : (a &&& 0xFFFFFFFC) &&& BitVec.ofNat 32 i = 0#32 := by rw [BitVec.and_assoc, hz.1, BitVec.and_zero]
  rw [BitVec.add_eq_or_of_and_eq_zero _ _ hd]
  ext j hj
  have := congrArg (fun x : Word => x[j]) hz.2
  simp only [BitVec.getElem_and] at this
  simp only [BitVec.getElem_and, BitVec.getElem_or, Bool.and_or_distrib_right, this, Bool.and_assoc, Bool.and_self,
    BitVec.getElem_zero, Bool.or_false]

/-- A longword of unknown bytes changes no byte outside it. -/
theorem State.byteAt_scrambleLong_of_ne {s : State} (k : Nat) {a b : Word} (h : s.mem.wf = true)
    (hb : b &&& 0xFFFFFFFC ≠ a &&& 0xFFFFFFFC) :
    (s.scrambleLong (a &&& 0xFFFFFFFC)).byteAt k b = s.byteAt k b := by
  have hne (i : Nat) (hi : i < 4) : b ≠ (a &&& 0xFFFFFFFC) + BitVec.ofNat 32 i :=
    fun e => hb (by rw [e, aligned_add_and a hi])
  have h0 : b ≠ a &&& 0xFFFFFFFC := by simpa using hne 0 (by decide)
  have h1 : b ≠ (a &&& 0xFFFFFFFC) + 1 := hne 1 (by decide)
  have h2 : b ≠ (a &&& 0xFFFFFFFC) + 2 := hne 2 (by decide)
  have h3 : b ≠ (a &&& 0xFFFFFFFC) + 3 := hne 3 (by decide)
  have w {t : State} (c : Word) (v : Byte) (ht : t.mem.wf = true) := State.putByte_mem_wf c v ht
  unfold State.scrambleLong
  simp only
  rw [State.byteAt_putByte_of_ne k _ (w _ _ (w _ _ (w _ _ h))) h3,
    State.byteAt_putByte_of_ne k _ (w _ _ (w _ _ h)) h2,
    State.byteAt_putByte_of_ne k _ (w _ _ h) h1, State.byteAt_putByte_of_ne k _ h h0]

theorem State.scrambleLong_mem_wf {s : State} (a : Word) (h : s.mem.wf = true) : (s.scrambleLong a).mem.wf = true := by
  unfold State.scrambleLong
  simp only
  repeat apply State.putByte_mem_wf
  exact h

/-- After a misaligned write only the bytes of the aligned longwords it reaches into are unknown. -/
theorem State.byteAt_scrambleAround_of_ne {s : State} (k : Nat) {a b : Word} {width : Nat} (h : s.mem.wf = true)
    (h1 : b &&& 0xFFFFFFFC ≠ a &&& 0xFFFFFFFC)
    (h2 : b &&& 0xFFFFFFFC ≠ (a + BitVec.ofNat 32 (width - 1)) &&& 0xFFFFFFFC) :
    (s.scrambleAround a width).byteAt k b = s.byteAt k b := by
  rw [State.scrambleAround, State.byteAt_scrambleLong_of_ne k (State.scrambleLong_mem_wf _ h) h2,
    State.byteAt_scrambleLong_of_ne k h h1]

/-- The accesses of an entry see only R15, VBR and the map. -/
theorem State.EntryReady.congr {s u : State} {v : BitVec 8} (h : s.EntryReady v) (hr : u.regs = s.regs)
    (hv : u.vbr = s.vbr) (hp : u.params = s.params) : u.EntryReady v := by
  simpa only [State.EntryReady, State.Writable, State.Readable, State.kindAt, State.vectorAddr, State.reg, hr, hv, hp]
    using h

/-- What a misaligned access does where a stacked PC for address errors is given. -/
theorem raiseMem_took {s : State} {a : Word} {kind : AccessKind} {width : Nat} {plain : StackedPcPlain}
    {slot : StackedPcSlot} (hp : s.params.stackedPcAddressError = some (plain, slot)) (hm : s.mem.wf = true)
    (h : s.EntryReady s.params.vecAddressError) :
    ∃ t, raiseMem (.misaligned a kind width) s = .next t ∧ TookAddressError a kind width plain slot s t := by
  have hraise : raiseMem (.misaligned a kind width) s =
      enterException s.params.vecAddressError (s.stackedPc plain slot) none
        (if kind = .write then s.scrambleAround a width else s) := by
    unfold raiseMem; rw [hp]
  rw [hraise]
  split
  · rename_i hk
    obtain ⟨t, h1, h2⟩ := enterException_took (stackedPc := s.stackedPc plain slot) (level := none)
      (State.scrambleAround_mem_wf a width hm) (h.congr (u := s.scrambleAround a width) (by simp) (by simp) (by simp))
    refine ⟨t, h1, s.scrambleAround a width, ⟨?_, ?_, ?_, by simp, by simp, by simp, by simp, by simp⟩,
      fun hn => absurd hk hn, fun k b => State.byteAt_scrambleAround_of_ne k hm, by simpa using h2⟩
    · intro r _; simp [State.reg]
    · intro r _; simp [State.freg]
    · intro r _; cases r <;> simp [State.special]
  · obtain ⟨t, h1, h2⟩ := enterException_took (stackedPc := s.stackedPc plain slot) (level := none) hm h
    exact ⟨t, h1, s, ⟨fun _ _ => rfl, fun _ _ => rfl, fun _ _ => rfl, rfl, rfl, rfl, rfl, rfl⟩, fun _ => rfl,
      fun _ _ _ _ => rfl, h2⟩

/-! ### Why an access fails -/

theorem State.accessError_of_misaligned {s : State} {kind : AccessKind} {width : Nat} {a : Word}
    (h : a.toNat % width ≠ 0) : s.accessError kind width a = some (.misaligned a kind width) := by
  unfold State.accessError; rw [if_pos h]

theorem State.touches_of_kindAt {s : State} {region : RegionKind} {width : Nat} {a : Word}
    (h : ∃ j, j < width ∧ s.kindAt (a + BitVec.ofNat 32 j) = region) : s.touches region width a = true := by
  obtain ⟨j, hj, hk⟩ := h
  exact List.any_eq_true.2 ⟨j, List.mem_range.2 hj, beq_iff_eq.2 hk⟩

theorem State.accessError_of_absent {s : State} {kind : AccessKind} {width : Nat} {a : Word} (h : a.toNat % width = 0)
    (hx : ∃ j, j < width ∧ s.kindAt (a + BitVec.ofNat 32 j) = .absent) :
    s.accessError kind width a = some (.absent a) := by
  unfold State.accessError; rw [if_neg (not_not.2 h), if_pos (State.touches_of_kindAt hx)]

theorem State.accessError_of_romFault {s : State} {width : Nat} {a : Word} (hr : s.Readable width a)
    (hx : ∃ j, j < width ∧ s.kindAt (a + BitVec.ofNat 32 j) = .romFault) :
    s.accessError .write width a = some (.readOnly a) := by
  have h0 := (State.accessError_read s width a).2 hr
  unfold State.accessError at h0 ⊢
  split at h0
  · cases h0
  · rename_i h1
    split at h0
    · cases h0
    · rename_i h2
      rw [if_neg h1, if_neg h2, if_pos ⟨rfl, State.touches_of_kindAt hx⟩]

/-! ### A failed access inside exception entry (R413) -/

theorem enterException_of_firstError {s : State} {vector : BitVec 8} {stackedPc : Word} {level : Option (BitVec 4)}
    {e : MemErr} (h : s.accessError .write 4 (s.reg spNum - 4) = some e) :
    enterException vector stackedPc level s = .fault e.toFault := by
  unfold enterException State.storeLong
  rw [h]

theorem enterException_of_secondError {s : State} {vector : BitVec 8} {stackedPc : Word} {level : Option (BitVec 4)}
    {e : MemErr} (h1 : s.Writable 4 (s.reg spNum - 4)) (h : s.accessError .write 4 (s.reg spNum - 8) = some e) :
    enterException vector stackedPc level s = .fault e.toFault := by
  unfold enterException
  rw [State.storeLong_of_writable _ h1]
  simp only [State.storeLong, State.putLong_accessError, h]

theorem enterException_of_vectorError {s : State} {vector : BitVec 8} {stackedPc : Word} {level : Option (BitVec 4)}
    {e : MemErr} (h1 : s.Writable 4 (s.reg spNum - 4)) (h2 : s.Writable 4 (s.reg spNum - 8))
    (h : s.accessError .read 4 (s.vectorAddr vector) = some e) :
    enterException vector stackedPc level s = .fault e.toFault := by
  have h2' := (State.accessError_write s 4 (s.reg spNum - 8)).2 h2
  unfold enterException
  rw [State.storeLong_of_writable _ h1]
  simp only [State.storeLong, State.loadLong, State.putLong_accessError, h2', h]

end Sys2Proof.Machine
end

