-- ==== Sys2Proof/Laws/Float.lean ====
section
/-! SUPPORT. The classes of a pattern by its value, and what the shared shapes of the floating-point instructions can
do: FPSCR after an outcome, and the outcome written or stopped by an enabled exception. -/

namespace Sys2Proof.Machine

/-! ### Operand classes -/

theorem fpAbs_toNat (v : Word) : (fpAbs v).toNat = v.toNat % 2 ^ 31 := by
  rw [fpAbs, BitVec.toNat_and]
  exact Nat.and_two_pow_sub_one_eq_mod v.toNat 31

theorem fpIsZero_iff (v : Word) : fpIsZero v = true ↔ v.toNat % 2 ^ 31 < 2 ^ 23 := by
  rw [fpIsZero, BitVec.ult_iff_toNat_lt, fpAbs_toNat]; rfl

theorem fpIsInf_iff (v : Word) : fpIsInf v = true ↔ v.toNat % 2 ^ 31 = 255 * 2 ^ 23 := by
  rw [fpIsInf, beq_iff_eq, ← BitVec.toNat_inj, fpAbs_toNat]; rfl

theorem fpIsNan_iff (v : Word) : fpIsNan v = true ↔ 255 * 2 ^ 23 < v.toNat % 2 ^ 31 := by
  rw [fpIsNan, BitVec.ult_iff_toNat_lt, fpAbs_toNat]; rfl

theorem fpExponent_eq (v : Word) : fpExponent v = v.toNat / 2 ^ 23 % 2 ^ 8 := by
  rw [fpExponent, BitVec.extractLsb'_toNat, Nat.shiftRight_eq_div_pow]

/-- A normalized number is one that is no zero, infinity or NaN. -/
theorem fpNorm_iff (v : Word) : FpNorm v ↔ fpIsZero v = false ∧ fpIsInf v = false ∧ fpIsNan v = false := by
  simp only [FpNorm, ← Bool.not_eq_true, fpIsZero_iff, fpIsInf_iff, fpIsNan_iff, fpExponent_eq]
  omega

theorem fpIsInf_excludes {v : Word} (h : fpIsInf v = true) : fpIsZero v = false ∧ fpIsNan v = false := by
  simp only [← Bool.not_eq_true, fpIsZero_iff, fpIsInf_iff, fpIsNan_iff] at *
  omega

theorem fpIsZero_excludes {v : Word} (h : fpIsZero v = true) : fpIsInf v = false ∧ fpIsNan v = false := by
  simp only [← Bool.not_eq_true, fpIsZero_iff, fpIsInf_iff, fpIsNan_iff] at *
  omega

theorem fpIsSNan_of_not_nan {v : Word} (h : fpIsNan v = false) : fpIsSNan v = false := by rw [fpIsSNan, h]; rfl

theorem fpIsQNan_of_not_nan {v : Word} (h : fpIsNan v = false) : fpIsQNan v = false := by rw [fpIsQNan, h]; rfl

/-! ### FPSCR after an outcome -/

theorem State.clearCause_eq (s : State) (v : Word) : s.clearCause = { s with fpscr := fpscrAfter (.value v) s } := by
  simp only [State.clearCause, fpscrAfter, setBit, Bool.false_eq_true, if_false, BitVec.and_assoc]
  rfl

theorem State.setInvalid_clearCause (s : State) :
    s.clearCause.setInvalid = { s with fpscr := fpscrAfter .invalid s } := by
  rw [State.clearCause_eq s 0]
  simp only [State.setInvalid, fpscrAfter, setBit, if_true, BitVec.or_assoc]
  rfl

theorem State.setDivZero_clearCause (s : State) (sign : Bool) :
    s.clearCause.setDivZero = { s with fpscr := fpscrAfter (.divByZero sign) s } := by
  rw [State.clearCause_eq s 0]
  simp only [State.setDivZero, fpscrAfter, setBit, if_true, BitVec.or_assoc]
  rfl

theorem State.ev_clearCause_setInvalid (s : State) : s.clearCause.setInvalid.ev = s.ev := by simp

theorem State.ez_clearCause_setDivZero (s : State) : s.clearCause.setDivZero.ez = s.ez := by simp

/-! ### Outcomes -/

/-- FRn and FPSCR written, then the end of the instruction. -/
theorem finish_wroteFp (n : FRegNum) (v f : Word) (s : State) :
    ∃ t, finish (State.setFreg { s with fpscr := f } n v) = .next t ∧ WroteFp n v f s t := by
  refine ⟨_, rfl, ⟨(State.freg_setFreg _ n n v).trans (if_pos rfl), rfl, ⟨fun _ _ => rfl, fun r hr => ?_,
    fun r hr => ?_, rfl, rfl, rfl, rfl, rfl⟩, ⟨fun _ _ => rfl, rfl⟩, ⟨rfl, rfl, rfl, rfl⟩⟩⟩
  · exact (State.freg_setFreg _ n r v).trans (if_neg (by simpa using hr))
  · cases r <;> first | rfl | simp at hr

/-- An outcome that no enabled exception stops. -/
theorem arithOutcome_of_quiet {n : FRegNum} {r : FpResult} {s : State} (h : FpQuiet r s) :
    ∃ t, arithOutcome n r s = .next t ∧ WroteFp n (fpWritten r) (fpscrAfter r s) s t := by
  cases r with
  | value v => simp only [arithOutcome]; rw [State.clearCause_eq s v]; exact finish_wroteFp _ _ _ _
  | invalid =>
    have h : s.ev = false := h
    simp only [arithOutcome, invalidOutcome, State.ev_clearCause_setInvalid, h]
    rw [State.setInvalid_clearCause]
    exact finish_wroteFp _ _ _ _
  | divByZero sign =>
    have h : s.ez = false := h
    simp only [arithOutcome, divZeroOutcome, State.ez_clearCause_setDivZero, h]
    rw [State.setDivZero_clearCause s sign]
    exact finish_wroteFp _ _ _ _

/-- An outcome that an enabled exception stops: the FPU exception, with FPSCR showing the outcome. -/
theorem arithOutcome_of_traps {n : FRegNum} {r : FpResult} {s : State} (h : FpTraps r s) :
    arithOutcome n r s = raiseFpu { s with fpscr := fpscrAfter r s } := by
  cases r with
  | value v => cases h
  | invalid =>
    have h : s.ev = true := h
    simp only [arithOutcome, invalidOutcome, State.ev_clearCause_setInvalid, h, if_true]
    rw [State.setInvalid_clearCause]
  | divByZero sign =>
    have h : s.ez = true := h
    simp only [arithOutcome, divZeroOutcome, State.ez_clearCause_setDivZero, h, if_true]
    rw [State.setDivZero_clearCause s sign]

/-- T and FPSCR written, then the end of the instruction. -/
theorem finish_wroteTFpscr (b : Bool) (f : Word) (s : State) :
    ∃ t, finish (State.setT { s with fpscr := f } b) = .next t ∧ t.t = b ∧ t.fpscr = f ∧
      Frame [] [] [.fpscr] srT s t ∧ MemKept s t ∧ Completed false s t := by
  refine ⟨_, rfl, State.t_setT _ b, rfl, ⟨fun _ _ => rfl, fun _ _ => rfl, fun r hr => ?_,
    State.sr_setT_and { s with fpscr := f } b, rfl, rfl, rfl, rfl⟩, ⟨fun _ _ => rfl, rfl⟩, ⟨rfl, rfl, rfl, rfl⟩⟩
  cases r <;> first | rfl | simp at hr

/-- FPUL and FPSCR written, then the end of the instruction. -/
theorem finish_wroteFpulFpscr (v f : Word) (s : State) :
    ∃ t, finish { s with fpscr := f, fpul := v } = .next t ∧ t.fpul = v ∧ t.fpscr = f ∧
      Frame [] [] [.fpul, .fpscr] 0 s t ∧ MemKept s t ∧ Completed false s t := by
  refine ⟨_, rfl, rfl, rfl, ⟨fun _ _ => rfl, fun _ _ => rfl, fun r hr => ?_, rfl, rfl, rfl, rfl, rfl⟩,
    ⟨fun _ _ => rfl, rfl⟩, ⟨rfl, rfl, rfl, rfl⟩⟩
  cases r <;> first | rfl | simp at hr

end Sys2Proof.Machine
end

