-- ==== Sys2Proof/Laws/PerInstr.lean ====
section
/-! SUPPORT. One lemma per constructor of `Instr`: its code carries the fixed bits of its row of the opcode table
(R89, 30_encoding). -/

namespace Sys2Proof.Laws

/-- The code of an instruction has, under the row's mask, the row's fixed bits. -/
def TableRow.Statement (i : Instr) : Prop := encode i &&& i.tableMask = i.tableMatch

theorem TableRow.movImm (imm : BitVec 8) (n : RegNum) : TableRow.Statement (.movImm imm n) := mask_first _ _ _ _

theorem TableRow.movWPcRel (disp : BitVec 8) (n : RegNum) : TableRow.Statement (.movWPcRel disp n) := mask_first _ _ _ _

theorem TableRow.movLPcRel (disp : BitVec 8) (n : RegNum) : TableRow.Statement (.movLPcRel disp n) := mask_first _ _ _ _

theorem TableRow.movReg (m : RegNum) (n : RegNum) : TableRow.Statement (.movReg m n) := mask_first_last _ _ _ _

theorem TableRow.movBStore (m : RegNum) (n : RegNum) : TableRow.Statement (.movBStore m n) := mask_first_last _ _ _ _

theorem TableRow.movWStore (m : RegNum) (n : RegNum) : TableRow.Statement (.movWStore m n) := mask_first_last _ _ _ _

theorem TableRow.movLStore (m : RegNum) (n : RegNum) : TableRow.Statement (.movLStore m n) := mask_first_last _ _ _ _

theorem TableRow.movBLoad (m : RegNum) (n : RegNum) : TableRow.Statement (.movBLoad m n) := mask_first_last _ _ _ _

theorem TableRow.movWLoad (m : RegNum) (n : RegNum) : TableRow.Statement (.movWLoad m n) := mask_first_last _ _ _ _

theorem TableRow.movLLoad (m : RegNum) (n : RegNum) : TableRow.Statement (.movLLoad m n) := mask_first_last _ _ _ _

theorem TableRow.movBStoreDec (m : RegNum) (n : RegNum) : TableRow.Statement (.movBStoreDec m n) := mask_first_last _ _ _ _

theorem TableRow.movWStoreDec (m : RegNum) (n : RegNum) : TableRow.Statement (.movWStoreDec m n) := mask_first_last _ _ _ _

theorem TableRow.movLStoreDec (m : RegNum) (n : RegNum) : TableRow.Statement (.movLStoreDec m n) := mask_first_last _ _ _ _

theorem TableRow.movBLoadInc (m : RegNum) (n : RegNum) : TableRow.Statement (.movBLoadInc m n) := mask_first_last _ _ _ _

theorem TableRow.movWLoadInc (m : RegNum) (n : RegNum) : TableRow.Statement (.movWLoadInc m n) := mask_first_last _ _ _ _

theorem TableRow.movLLoadInc (m : RegNum) (n : RegNum) : TableRow.Statement (.movLLoadInc m n) := mask_first_last _ _ _ _

theorem TableRow.movBStoreDisp (disp : BitVec 4) (n : RegNum) : TableRow.Statement (.movBStoreDisp disp n) := mask_first_two _ _ _ _

theorem TableRow.movWStoreDisp (disp : BitVec 4) (n : RegNum) : TableRow.Statement (.movWStoreDisp disp n) := mask_first_two _ _ _ _

theorem TableRow.movLStoreDisp (m : RegNum) (disp : BitVec 4) (n : RegNum) : TableRow.Statement (.movLStoreDisp m disp n) := mask_first _ _ _ _

theorem TableRow.movBLoadDisp (disp : BitVec 4) (m : RegNum) : TableRow.Statement (.movBLoadDisp disp m) := mask_first_two _ _ _ _

theorem TableRow.movWLoadDisp (disp : BitVec 4) (m : RegNum) : TableRow.Statement (.movWLoadDisp disp m) := mask_first_two _ _ _ _

theorem TableRow.movLLoadDisp (disp : BitVec 4) (m : RegNum) (n : RegNum) : TableRow.Statement (.movLLoadDisp disp m n) := mask_first _ _ _ _

theorem TableRow.movBStoreIdx (m : RegNum) (n : RegNum) : TableRow.Statement (.movBStoreIdx m n) := mask_first_last _ _ _ _

theorem TableRow.movWStoreIdx (m : RegNum) (n : RegNum) : TableRow.Statement (.movWStoreIdx m n) := mask_first_last _ _ _ _

theorem TableRow.movLStoreIdx (m : RegNum) (n : RegNum) : TableRow.Statement (.movLStoreIdx m n) := mask_first_last _ _ _ _

theorem TableRow.movBLoadIdx (m : RegNum) (n : RegNum) : TableRow.Statement (.movBLoadIdx m n) := mask_first_last _ _ _ _

theorem TableRow.movWLoadIdx (m : RegNum) (n : RegNum) : TableRow.Statement (.movWLoadIdx m n) := mask_first_last _ _ _ _

theorem TableRow.movLLoadIdx (m : RegNum) (n : RegNum) : TableRow.Statement (.movLLoadIdx m n) := mask_first_last _ _ _ _

theorem TableRow.movBStoreGbr (disp : BitVec 8) : TableRow.Statement (.movBStoreGbr disp) := mask_first_two _ _ _ _

theorem TableRow.movWStoreGbr (disp : BitVec 8) : TableRow.Statement (.movWStoreGbr disp) := mask_first_two _ _ _ _

theorem TableRow.movLStoreGbr (disp : BitVec 8) : TableRow.Statement (.movLStoreGbr disp) := mask_first_two _ _ _ _

theorem TableRow.movBLoadGbr (disp : BitVec 8) : TableRow.Statement (.movBLoadGbr disp) := mask_first_two _ _ _ _

theorem TableRow.movWLoadGbr (disp : BitVec 8) : TableRow.Statement (.movWLoadGbr disp) := mask_first_two _ _ _ _

theorem TableRow.movLLoadGbr (disp : BitVec 8) : TableRow.Statement (.movLLoadGbr disp) := mask_first_two _ _ _ _

theorem TableRow.mova (disp : BitVec 8) : TableRow.Statement (.mova disp) := mask_first_two _ _ _ _

theorem TableRow.movt (n : RegNum) : TableRow.Statement (.movt n) := mask_all_but_second _ _ _ _

theorem TableRow.swapB (m : RegNum) (n : RegNum) : TableRow.Statement (.swapB m n) := mask_first_last _ _ _ _

theorem TableRow.swapW (m : RegNum) (n : RegNum) : TableRow.Statement (.swapW m n) := mask_first_last _ _ _ _

theorem TableRow.xtrct (m : RegNum) (n : RegNum) : TableRow.Statement (.xtrct m n) := mask_first_last _ _ _ _

theorem TableRow.addReg (m : RegNum) (n : RegNum) : TableRow.Statement (.addReg m n) := mask_first_last _ _ _ _

theorem TableRow.addImm (imm : BitVec 8) (n : RegNum) : TableRow.Statement (.addImm imm n) := mask_first _ _ _ _

theorem TableRow.addc (m : RegNum) (n : RegNum) : TableRow.Statement (.addc m n) := mask_first_last _ _ _ _

theorem TableRow.addv (m : RegNum) (n : RegNum) : TableRow.Statement (.addv m n) := mask_first_last _ _ _ _

theorem TableRow.cmpEqImm (imm : BitVec 8) : TableRow.Statement (.cmpEqImm imm) := mask_first_two _ _ _ _

theorem TableRow.cmpEq (m : RegNum) (n : RegNum) : TableRow.Statement (.cmpEq m n) := mask_first_last _ _ _ _

theorem TableRow.cmpHs (m : RegNum) (n : RegNum) : TableRow.Statement (.cmpHs m n) := mask_first_last _ _ _ _

theorem TableRow.cmpGe (m : RegNum) (n : RegNum) : TableRow.Statement (.cmpGe m n) := mask_first_last _ _ _ _

theorem TableRow.cmpHi (m : RegNum) (n : RegNum) : TableRow.Statement (.cmpHi m n) := mask_first_last _ _ _ _

theorem TableRow.cmpGt (m : RegNum) (n : RegNum) : TableRow.Statement (.cmpGt m n) := mask_first_last _ _ _ _

theorem TableRow.cmpPl (n : RegNum) : TableRow.Statement (.cmpPl n) := mask_all_but_second _ _ _ _

theorem TableRow.cmpPz (n : RegNum) : TableRow.Statement (.cmpPz n) := mask_all_but_second _ _ _ _

theorem TableRow.cmpStr (m : RegNum) (n : RegNum) : TableRow.Statement (.cmpStr m n) := mask_first_last _ _ _ _

theorem TableRow.div1 (m : RegNum) (n : RegNum) : TableRow.Statement (.div1 m n) := mask_first_last _ _ _ _

theorem TableRow.div0s (m : RegNum) (n : RegNum) : TableRow.Statement (.div0s m n) := mask_first_last _ _ _ _

theorem TableRow.div0u : TableRow.Statement .div0u := rfl

theorem TableRow.dmulsL (m : RegNum) (n : RegNum) : TableRow.Statement (.dmulsL m n) := mask_first_last _ _ _ _

theorem TableRow.dmuluL (m : RegNum) (n : RegNum) : TableRow.Statement (.dmuluL m n) := mask_first_last _ _ _ _

theorem TableRow.dt (n : RegNum) : TableRow.Statement (.dt n) := mask_all_but_second _ _ _ _

theorem TableRow.extsB (m : RegNum) (n : RegNum) : TableRow.Statement (.extsB m n) := mask_first_last _ _ _ _

theorem TableRow.extsW (m : RegNum) (n : RegNum) : TableRow.Statement (.extsW m n) := mask_first_last _ _ _ _

theorem TableRow.extuB (m : RegNum) (n : RegNum) : TableRow.Statement (.extuB m n) := mask_first_last _ _ _ _

theorem TableRow.extuW (m : RegNum) (n : RegNum) : TableRow.Statement (.extuW m n) := mask_first_last _ _ _ _

theorem TableRow.macL (m : RegNum) (n : RegNum) : TableRow.Statement (.macL m n) := mask_first_last _ _ _ _

theorem TableRow.macW (m : RegNum) (n : RegNum) : TableRow.Statement (.macW m n) := mask_first_last _ _ _ _

theorem TableRow.mulL (m : RegNum) (n : RegNum) : TableRow.Statement (.mulL m n) := mask_first_last _ _ _ _

theorem TableRow.mulsW (m : RegNum) (n : RegNum) : TableRow.Statement (.mulsW m n) := mask_first_last _ _ _ _

theorem TableRow.muluW (m : RegNum) (n : RegNum) : TableRow.Statement (.muluW m n) := mask_first_last _ _ _ _

theorem TableRow.neg (m : RegNum) (n : RegNum) : TableRow.Statement (.neg m n) := mask_first_last _ _ _ _

theorem TableRow.negc (m : RegNum) (n : RegNum) : TableRow.Statement (.negc m n) := mask_first_last _ _ _ _

theorem TableRow.sub (m : RegNum) (n : RegNum) : TableRow.Statement (.sub m n) := mask_first_last _ _ _ _

theorem TableRow.subc (m : RegNum) (n : RegNum) : TableRow.Statement (.subc m n) := mask_first_last _ _ _ _

theorem TableRow.subv (m : RegNum) (n : RegNum) : TableRow.Statement (.subv m n) := mask_first_last _ _ _ _

theorem TableRow.andReg (m : RegNum) (n : RegNum) : TableRow.Statement (.andReg m n) := mask_first_last _ _ _ _

theorem TableRow.andImm (imm : BitVec 8) : TableRow.Statement (.andImm imm) := mask_first_two _ _ _ _

theorem TableRow.andB (imm : BitVec 8) : TableRow.Statement (.andB imm) := mask_first_two _ _ _ _

theorem TableRow.not (m : RegNum) (n : RegNum) : TableRow.Statement (.not m n) := mask_first_last _ _ _ _

theorem TableRow.orReg (m : RegNum) (n : RegNum) : TableRow.Statement (.orReg m n) := mask_first_last _ _ _ _

theorem TableRow.orImm (imm : BitVec 8) : TableRow.Statement (.orImm imm) := mask_first_two _ _ _ _

theorem TableRow.orB (imm : BitVec 8) : TableRow.Statement (.orB imm) := mask_first_two _ _ _ _

theorem TableRow.tasB (n : RegNum) : TableRow.Statement (.tasB n) := mask_all_but_second _ _ _ _

theorem TableRow.tstReg (m : RegNum) (n : RegNum) : TableRow.Statement (.tstReg m n) := mask_first_last _ _ _ _

theorem TableRow.tstImm (imm : BitVec 8) : TableRow.Statement (.tstImm imm) := mask_first_two _ _ _ _

theorem TableRow.tstB (imm : BitVec 8) : TableRow.Statement (.tstB imm) := mask_first_two _ _ _ _

theorem TableRow.xorReg (m : RegNum) (n : RegNum) : TableRow.Statement (.xorReg m n) := mask_first_last _ _ _ _

theorem TableRow.xorImm (imm : BitVec 8) : TableRow.Statement (.xorImm imm) := mask_first_two _ _ _ _

theorem TableRow.xorB (imm : BitVec 8) : TableRow.Statement (.xorB imm) := mask_first_two _ _ _ _

theorem TableRow.rotl (n : RegNum) : TableRow.Statement (.rotl n) := mask_all_but_second _ _ _ _

theorem TableRow.rotr (n : RegNum) : TableRow.Statement (.rotr n) := mask_all_but_second _ _ _ _

theorem TableRow.rotcl (n : RegNum) : TableRow.Statement (.rotcl n) := mask_all_but_second _ _ _ _

theorem TableRow.rotcr (n : RegNum) : TableRow.Statement (.rotcr n) := mask_all_but_second _ _ _ _

theorem TableRow.shal (n : RegNum) : TableRow.Statement (.shal n) := mask_all_but_second _ _ _ _

theorem TableRow.shar (n : RegNum) : TableRow.Statement (.shar n) := mask_all_but_second _ _ _ _

theorem TableRow.shll (n : RegNum) : TableRow.Statement (.shll n) := mask_all_but_second _ _ _ _

theorem TableRow.shlr (n : RegNum) : TableRow.Statement (.shlr n) := mask_all_but_second _ _ _ _

theorem TableRow.shll2 (n : RegNum) : TableRow.Statement (.shll2 n) := mask_all_but_second _ _ _ _

theorem TableRow.shlr2 (n : RegNum) : TableRow.Statement (.shlr2 n) := mask_all_but_second _ _ _ _

theorem TableRow.shll8 (n : RegNum) : TableRow.Statement (.shll8 n) := mask_all_but_second _ _ _ _

theorem TableRow.shlr8 (n : RegNum) : TableRow.Statement (.shlr8 n) := mask_all_but_second _ _ _ _

theorem TableRow.shll16 (n : RegNum) : TableRow.Statement (.shll16 n) := mask_all_but_second _ _ _ _

theorem TableRow.shlr16 (n : RegNum) : TableRow.Statement (.shlr16 n) := mask_all_but_second _ _ _ _

theorem TableRow.bf (disp : BitVec 8) : TableRow.Statement (.bf disp) := mask_first_two _ _ _ _

theorem TableRow.bfS (disp : BitVec 8) : TableRow.Statement (.bfS disp) := mask_first_two _ _ _ _

theorem TableRow.bt (disp : BitVec 8) : TableRow.Statement (.bt disp) := mask_first_two _ _ _ _

theorem TableRow.btS (disp : BitVec 8) : TableRow.Statement (.btS disp) := mask_first_two _ _ _ _

theorem TableRow.bra (disp : BitVec 12) : TableRow.Statement (.bra disp) := mask_first _ _ _ _

theorem TableRow.braf (m : RegNum) : TableRow.Statement (.braf m) := mask_all_but_second _ _ _ _

theorem TableRow.bsr (disp : BitVec 12) : TableRow.Statement (.bsr disp) := mask_first _ _ _ _

theorem TableRow.bsrf (m : RegNum) : TableRow.Statement (.bsrf m) := mask_all_but_second _ _ _ _

theorem TableRow.jmp (m : RegNum) : TableRow.Statement (.jmp m) := mask_all_but_second _ _ _ _

theorem TableRow.jsr (m : RegNum) : TableRow.Statement (.jsr m) := mask_all_but_second _ _ _ _

theorem TableRow.rts : TableRow.Statement .rts := rfl

theorem TableRow.clrt : TableRow.Statement .clrt := rfl

theorem TableRow.clrmac : TableRow.Statement .clrmac := rfl

theorem TableRow.ldcSr (m : RegNum) : TableRow.Statement (.ldcSr m) := mask_all_but_second _ _ _ _

theorem TableRow.ldcGbr (m : RegNum) : TableRow.Statement (.ldcGbr m) := mask_all_but_second _ _ _ _

theorem TableRow.ldcVbr (m : RegNum) : TableRow.Statement (.ldcVbr m) := mask_all_but_second _ _ _ _

theorem TableRow.ldcLSr (m : RegNum) : TableRow.Statement (.ldcLSr m) := mask_all_but_second _ _ _ _

theorem TableRow.ldcLGbr (m : RegNum) : TableRow.Statement (.ldcLGbr m) := mask_all_but_second _ _ _ _

theorem TableRow.ldcLVbr (m : RegNum) : TableRow.Statement (.ldcLVbr m) := mask_all_but_second _ _ _ _

theorem TableRow.ldsMach (m : RegNum) : TableRow.Statement (.ldsMach m) := mask_all_but_second _ _ _ _

theorem TableRow.ldsMacl (m : RegNum) : TableRow.Statement (.ldsMacl m) := mask_all_but_second _ _ _ _

theorem TableRow.ldsPr (m : RegNum) : TableRow.Statement (.ldsPr m) := mask_all_but_second _ _ _ _

theorem TableRow.ldsLMach (m : RegNum) : TableRow.Statement (.ldsLMach m) := mask_all_but_second _ _ _ _

theorem TableRow.ldsLMacl (m : RegNum) : TableRow.Statement (.ldsLMacl m) := mask_all_but_second _ _ _ _

theorem TableRow.ldsLPr (m : RegNum) : TableRow.Statement (.ldsLPr m) := mask_all_but_second _ _ _ _

theorem TableRow.nop : TableRow.Statement .nop := rfl

theorem TableRow.rte : TableRow.Statement .rte := rfl

theorem TableRow.sett : TableRow.Statement .sett := rfl

theorem TableRow.sleep : TableRow.Statement .sleep := rfl

theorem TableRow.stcSr (n : RegNum) : TableRow.Statement (.stcSr n) := mask_all_but_second _ _ _ _

theorem TableRow.stcGbr (n : RegNum) : TableRow.Statement (.stcGbr n) := mask_all_but_second _ _ _ _

theorem TableRow.stcVbr (n : RegNum) : TableRow.Statement (.stcVbr n) := mask_all_but_second _ _ _ _

theorem TableRow.stcLSr (n : RegNum) : TableRow.Statement (.stcLSr n) := mask_all_but_second _ _ _ _

theorem TableRow.stcLGbr (n : RegNum) : TableRow.Statement (.stcLGbr n) := mask_all_but_second _ _ _ _

theorem TableRow.stcLVbr (n : RegNum) : TableRow.Statement (.stcLVbr n) := mask_all_but_second _ _ _ _

theorem TableRow.stsMach (n : RegNum) : TableRow.Statement (.stsMach n) := mask_all_but_second _ _ _ _

theorem TableRow.stsMacl (n : RegNum) : TableRow.Statement (.stsMacl n) := mask_all_but_second _ _ _ _

theorem TableRow.stsPr (n : RegNum) : TableRow.Statement (.stsPr n) := mask_all_but_second _ _ _ _

theorem TableRow.stsLMach (n : RegNum) : TableRow.Statement (.stsLMach n) := mask_all_but_second _ _ _ _

theorem TableRow.stsLMacl (n : RegNum) : TableRow.Statement (.stsLMacl n) := mask_all_but_second _ _ _ _

theorem TableRow.stsLPr (n : RegNum) : TableRow.Statement (.stsLPr n) := mask_all_but_second _ _ _ _

theorem TableRow.trapa (imm : BitVec 8) : TableRow.Statement (.trapa imm) := mask_first_two _ _ _ _

theorem TableRow.fabs (n : FRegNum) : TableRow.Statement (.fabs n) := mask_all_but_second _ _ _ _

theorem TableRow.fadd (m : FRegNum) (n : FRegNum) : TableRow.Statement (.fadd m n) := mask_first_last _ _ _ _

theorem TableRow.fcmpEq (m : FRegNum) (n : FRegNum) : TableRow.Statement (.fcmpEq m n) := mask_first_last _ _ _ _

theorem TableRow.fcmpGt (m : FRegNum) (n : FRegNum) : TableRow.Statement (.fcmpGt m n) := mask_first_last _ _ _ _

theorem TableRow.fdiv (m : FRegNum) (n : FRegNum) : TableRow.Statement (.fdiv m n) := mask_first_last _ _ _ _

theorem TableRow.fldi0 (n : FRegNum) : TableRow.Statement (.fldi0 n) := mask_all_but_second _ _ _ _

theorem TableRow.fldi1 (n : FRegNum) : TableRow.Statement (.fldi1 n) := mask_all_but_second _ _ _ _

theorem TableRow.flds (m : FRegNum) : TableRow.Statement (.flds m) := mask_all_but_second _ _ _ _

theorem TableRow.float (n : FRegNum) : TableRow.Statement (.float n) := mask_all_but_second _ _ _ _

theorem TableRow.fmac (m : FRegNum) (n : FRegNum) : TableRow.Statement (.fmac m n) := mask_first_last _ _ _ _

theorem TableRow.fmov (m : FRegNum) (n : FRegNum) : TableRow.Statement (.fmov m n) := mask_first_last _ _ _ _

theorem TableRow.fmovLoadIdx (m : RegNum) (n : FRegNum) : TableRow.Statement (.fmovLoadIdx m n) := mask_first_last _ _ _ _

theorem TableRow.fmovLoadInc (m : RegNum) (n : FRegNum) : TableRow.Statement (.fmovLoadInc m n) := mask_first_last _ _ _ _

theorem TableRow.fmovLoad (m : RegNum) (n : FRegNum) : TableRow.Statement (.fmovLoad m n) := mask_first_last _ _ _ _

theorem TableRow.fmovStoreIdx (m : FRegNum) (n : RegNum) : TableRow.Statement (.fmovStoreIdx m n) := mask_first_last _ _ _ _

theorem TableRow.fmovStoreDec (m : FRegNum) (n : RegNum) : TableRow.Statement (.fmovStoreDec m n) := mask_first_last _ _ _ _

theorem TableRow.fmovStore (m : FRegNum) (n : RegNum) : TableRow.Statement (.fmovStore m n) := mask_first_last _ _ _ _

theorem TableRow.fmul (m : FRegNum) (n : FRegNum) : TableRow.Statement (.fmul m n) := mask_first_last _ _ _ _

theorem TableRow.fneg (n : FRegNum) : TableRow.Statement (.fneg n) := mask_all_but_second _ _ _ _

theorem TableRow.fsts (n : FRegNum) : TableRow.Statement (.fsts n) := mask_all_but_second _ _ _ _

theorem TableRow.fsub (m : FRegNum) (n : FRegNum) : TableRow.Statement (.fsub m n) := mask_first_last _ _ _ _

theorem TableRow.ftrc (m : FRegNum) : TableRow.Statement (.ftrc m) := mask_all_but_second _ _ _ _

theorem TableRow.ldsFpscr (m : RegNum) : TableRow.Statement (.ldsFpscr m) := mask_all_but_second _ _ _ _

theorem TableRow.ldsFpul (m : RegNum) : TableRow.Statement (.ldsFpul m) := mask_all_but_second _ _ _ _

theorem TableRow.ldsLFpscr (m : RegNum) : TableRow.Statement (.ldsLFpscr m) := mask_all_but_second _ _ _ _

theorem TableRow.ldsLFpul (m : RegNum) : TableRow.Statement (.ldsLFpul m) := mask_all_but_second _ _ _ _

theorem TableRow.stsFpscr (n : RegNum) : TableRow.Statement (.stsFpscr n) := mask_all_but_second _ _ _ _

theorem TableRow.stsFpul (n : RegNum) : TableRow.Statement (.stsFpul n) := mask_all_but_second _ _ _ _

theorem TableRow.stsLFpscr (n : RegNum) : TableRow.Statement (.stsLFpscr n) := mask_all_but_second _ _ _ _

theorem TableRow.stsLFpul (n : RegNum) : TableRow.Statement (.stsLFpul n) := mask_all_but_second _ _ _ _

end Sys2Proof.Laws
end

