-- ==== Sys2Proof/Tests/Slice0.lean ====
section
/-! SUPPORT. Tests: the checks of WellFormed.lean refuse what they should, codes of every family decode, one step of
every instruction on values the spec prints (95_test_vectors, 96, 97) or a rule gives, and a witness for the
hypotheses of each statement. -/

namespace Sys2Proof.Tests

open Sys2Proof.Machine

/-! ### Small states -/

/-- A place of the state with one number in it. -/
inductive Loc where
  | r (n : Nat)
  | fr (n : Nat)
  | pc | sr | gbr | vbr | mach | macl | pr | fpul | fpscr
  | t | s | q | m
  | target | asleep
  | byte (a : Nat)
  | half (a : Nat)
  | long (a : Nat)

/-- Put a number into a place. -/
def put (st : State) (p : Loc × Nat) : State :=
  match p.1 with
  | .r n => st.setReg (BitVec.ofNat 4 n) (BitVec.ofNat 32 p.2)
  | .fr n => st.setFreg (BitVec.ofNat 4 n) (BitVec.ofNat 32 p.2)
  | .pc => { st with pc := BitVec.ofNat 32 p.2 }
  | .sr => { st with sr := BitVec.ofNat 32 p.2 }
  | .gbr => { st with gbr := BitVec.ofNat 32 p.2 }
  | .vbr => { st with vbr := BitVec.ofNat 32 p.2 }
  | .mach => { st with mach := BitVec.ofNat 32 p.2 }
  | .macl => { st with macl := BitVec.ofNat 32 p.2 }
  | .pr => { st with pr := BitVec.ofNat 32 p.2 }
  | .fpul => { st with fpul := BitVec.ofNat 32 p.2 }
  | .fpscr => { st with fpscr := BitVec.ofNat 32 p.2 }
  | .t => st.setT (p.2 == 1)
  | .s => { st with sr := setBit st.sr 1 (p.2 == 1) }
  | .q => st.setQ (p.2 == 1)
  | .m => st.setM (p.2 == 1)
  | .target => { st with slot := .pending (BitVec.ofNat 32 p.2) }
  | .asleep => { st with proc := .sleep }
  | .byte a => st.putByte (BitVec.ofNat 32 a) (BitVec.ofNat 8 p.2)
  | .half a => st.putHalf (BitVec.ofNat 32 a) (BitVec.ofNat 16 p.2)
  | .long a => st.putLong (BitVec.ofNat 32 a) (BitVec.ofNat 32 p.2)

/-- Whether a place holds a number. -/
def holds (st : State) (p : Loc × Nat) : Bool :=
  match p.1 with
  | .r n => (st.reg (BitVec.ofNat 4 n)).toNat == p.2
  | .fr n => (st.freg (BitVec.ofNat 4 n)).toNat == p.2
  | .pc => st.pc.toNat == p.2
  | .sr => st.sr.toNat == p.2
  | .gbr => st.gbr.toNat == p.2
  | .vbr => st.vbr.toNat == p.2
  | .mach => st.mach.toNat == p.2
  | .macl => st.macl.toNat == p.2
  | .pr => st.pr.toNat == p.2
  | .fpul => st.fpul.toNat == p.2
  | .fpscr => st.fpscr.toNat == p.2
  | .t => st.t == (p.2 == 1)
  | .s => st.sBit == (p.2 == 1)
  | .q => st.q == (p.2 == 1)
  | .m => st.m == (p.2 == 1)
  | .target => decide (st.slot = .pending (BitVec.ofNat 32 p.2))
  | .asleep => decide (st.proc = .sleep)
  | .byte a => (st.byteAt 0 (BitVec.ofNat 32 a)).toNat == p.2
  | .half a => (st.halfAt 0 (BitVec.ofNat 32 a)).toNat == p.2
  | .long a => (st.longAt 0 (BitVec.ofNat 32 a)).toNat == p.2

/-- The reset state with the parameters that have no default set to one of their values. -/
def blank : State :=
  { State.reset with
    params := { defaultParams with
      fmacFused := false, macwOvfSetsMachLsb := false, floatClearsCause := false
      stackedPcFpu := .self, stackedPcFpuSlot := .target } }

/-- The blank state with numbers in some places. -/
def state (before : List (Loc × Nat)) : State := before.foldl put blank

/-- The instruction of a code, executed with numbers in some places, answers a next state with numbers in others. -/
def gives (code : Half) (before after : List (Loc × Nat)) : Bool :=
  match decode code with
  | .error _ => false
  | .ok i =>
    match exec i (state before) with
    | .next t => after.all (holds t)
    | _ => false

/-- The instruction of a code, executed with numbers in some places, faults. -/
def faults (code : Half) (before : List (Loc × Nat)) (f : Fault) : Bool :=
  match decode code with
  | .error _ => false
  | .ok i =>
    match exec i (state before) with
    | .fault e => decide (e = f)
    | _ => false

/-! ### The checks of WellFormed.lean -/

theorem test_register_16_refused : checkRegister 16 = .error (.noSuchRegister 16) := by decide
theorem test_register_15_accepted : checkRegister 15 = .ok 15 := by decide
theorem test_signedImm_128_refused : checkSignedImm 128 = .error (.immediateRange 128) := by decide
theorem test_signedImm_below_refused : checkSignedImm (-129) = .error (.immediateRange (-129)) := by decide
theorem test_signedImm_accepted : checkSignedImm (-128) = .ok 0x80 ∧ checkSignedImm 127 = .ok 0x7F := by decide
theorem test_unsignedImm_256_refused : checkUnsignedImm 256 = .error (.immediateRange 256) := by decide
theorem test_unsignedImm_255_accepted : checkUnsignedImm 255 = .ok 0xFF := by decide
theorem test_scaledDisp_unscaled_refused : checkScaledDisp 4 4 6 = .error (.unscaledDisplacement 6) := by decide
theorem test_scaledDisp_64_refused : checkScaledDisp 4 4 64 = .error (.displacementRange 64) := by decide
theorem test_scaledDisp_60_accepted : checkScaledDisp 4 4 60 = .ok 0xF := by decide
theorem test_branchDisp_odd_refused : checkBranchDisp 8 3 = .error (.unscaledDisplacement 3) := by decide
theorem test_branchDisp_256_refused : checkBranchDisp 8 256 = .error (.displacementRange 256) := by decide
theorem test_branchDisp_accepted : checkBranchDisp 8 (-256) = .ok 0x80 ∧
    checkBranchDisp 12 4094 = .ok 0x7FF := by decide
theorem test_slot_branch_refused : checkSlot .rts = false ∧ checkSlot (.trapa 0) = false := by decide
theorem test_slot_nop_accepted : checkSlot .nop = true := by decide

/-! ### The step, and placing a word where it fetches -/

/-- `MOV #H'80,R1` placed at the PC of the reset state runs in the next step (R105, example). -/
theorem test_step_after_reset :
    (match step (State.reset.withFetchWord 16 0xE180) with
      | .next t => holds t (.r 1, 0xFFFFFF80) && holds t (.pc, 2)
      | _ => false) = true := by decide

/-- The opcode table's numbering of the bits of a code. -/
theorem test_decodeTableWord : decodeTableWord 16 0xE180 = some (.movImm 0x80 1) ∧
    decodeTableWord 16 0x8300 = none := by
  decide

/-- A delayed branch, its slot instruction, and the target: `BRA` to H'1006, `ADD #1,R1` in the slot (R241). -/
theorem test_slot_then_target :
    (match exec (.addImm 1 1) (state [(.pc, 0x1002), (.target, 0x1006), (.r 1, 4)]) with
      | .next t => holds t (.r 1, 5) && holds t (.pc, 0x1006) && decide (t.slot = .none)
      | _ => false) = true := by decide

/-- A longword read at an address that is no multiple of 4 (R54, R406). -/
theorem test_misaligned_load : faults 0x6102 [(.r 0, 0x2002)] (.addressError 0x2002 .read) = true := by decide

/-- A pre-decrement store at an odd word address (R116). -/
theorem test_misaligned_push : faults 0x2105 [(.r 1, 0x2001)] (.addressError 0x1FFF .write) = true := by decide

/-- A store over code is refused at the fetch while `FETCH_COHERENT` does not hold (R67, D9). -/
theorem test_stored_code :
    (match step (state [(.pc, 0x1000), (.half 0x1000, 9)]) with
      | .refused (.storedCode _) => true
      | _ => false) = true := by decide

/-! ### Every constructor's code, written from the encoding column of its rule -/

theorem test_decode_data_transfer_1 :
    decode 0xEDA5 = .ok (.movImm 0xA5 13) ∧ decode 0x9DA5 = .ok (.movWPcRel 0xA5 13) ∧
    decode 0xDDA5 = .ok (.movLPcRel 0xA5 13) ∧ decode 0x6D63 = .ok (.movReg 6 13) ∧
    decode 0x2D60 = .ok (.movBStore 6 13) ∧ decode 0x2D61 = .ok (.movWStore 6 13) ∧
    decode 0x2D62 = .ok (.movLStore 6 13) ∧ decode 0x6D60 = .ok (.movBLoad 6 13) ∧
    decode 0x6D61 = .ok (.movWLoad 6 13) ∧ decode 0x6D62 = .ok (.movLLoad 6 13) ∧
    decode 0x2D64 = .ok (.movBStoreDec 6 13) ∧ decode 0x2D65 = .ok (.movWStoreDec 6 13) ∧
    decode 0x2D66 = .ok (.movLStoreDec 6 13) ∧ decode 0x6D64 = .ok (.movBLoadInc 6 13) := by decide

theorem test_decode_data_transfer_2 :
    decode 0x6D65 = .ok (.movWLoadInc 6 13) ∧ decode 0x6D66 = .ok (.movLLoadInc 6 13) ∧
    decode 0x80DB = .ok (.movBStoreDisp 11 13) ∧ decode 0x81DB = .ok (.movWStoreDisp 11 13) ∧
    decode 0x1D6B = .ok (.movLStoreDisp 6 11 13) ∧ decode 0x846B = .ok (.movBLoadDisp 11 6) ∧
    decode 0x856B = .ok (.movWLoadDisp 11 6) ∧ decode 0x5D6B = .ok (.movLLoadDisp 11 6 13) ∧
    decode 0x0D64 = .ok (.movBStoreIdx 6 13) ∧ decode 0x0D65 = .ok (.movWStoreIdx 6 13) ∧
    decode 0x0D66 = .ok (.movLStoreIdx 6 13) ∧ decode 0x0D6C = .ok (.movBLoadIdx 6 13) ∧
    decode 0x0D6D = .ok (.movWLoadIdx 6 13) ∧ decode 0x0D6E = .ok (.movLLoadIdx 6 13) := by decide

theorem test_decode_data_transfer_3 :
    decode 0xC0A5 = .ok (.movBStoreGbr 0xA5) ∧ decode 0xC1A5 = .ok (.movWStoreGbr 0xA5) ∧
    decode 0xC2A5 = .ok (.movLStoreGbr 0xA5) ∧ decode 0xC4A5 = .ok (.movBLoadGbr 0xA5) ∧
    decode 0xC5A5 = .ok (.movWLoadGbr 0xA5) ∧ decode 0xC6A5 = .ok (.movLLoadGbr 0xA5) ∧
    decode 0xC7A5 = .ok (.mova 0xA5) ∧ decode 0x0D29 = .ok (.movt 13) ∧ decode 0x6D68 = .ok (.swapB 6 13) ∧
    decode 0x6D69 = .ok (.swapW 6 13) ∧ decode 0x2D6D = .ok (.xtrct 6 13) := by decide

theorem test_decode_arithmetic_1 :
    decode 0x3D6C = .ok (.addReg 6 13) ∧ decode 0x7DA5 = .ok (.addImm 0xA5 13) ∧ decode 0x3D6E = .ok (.addc 6 13) ∧
    decode 0x3D6F = .ok (.addv 6 13) ∧ decode 0x88A5 = .ok (.cmpEqImm 0xA5) ∧ decode 0x3D60 = .ok (.cmpEq 6 13) ∧
    decode 0x3D62 = .ok (.cmpHs 6 13) ∧ decode 0x3D63 = .ok (.cmpGe 6 13) ∧ decode 0x3D66 = .ok (.cmpHi 6 13) ∧
    decode 0x3D67 = .ok (.cmpGt 6 13) ∧ decode 0x4D15 = .ok (.cmpPl 13) ∧ decode 0x4D11 = .ok (.cmpPz 13) ∧
    decode 0x2D6C = .ok (.cmpStr 6 13) ∧ decode 0x3D64 = .ok (.div1 6 13) := by decide

theorem test_decode_arithmetic_2 :
    decode 0x2D67 = .ok (.div0s 6 13) ∧ decode 0x0019 = .ok .div0u ∧ decode 0x3D6D = .ok (.dmulsL 6 13) ∧
    decode 0x3D65 = .ok (.dmuluL 6 13) ∧ decode 0x4D10 = .ok (.dt 13) ∧ decode 0x6D6E = .ok (.extsB 6 13) ∧
    decode 0x6D6F = .ok (.extsW 6 13) ∧ decode 0x6D6C = .ok (.extuB 6 13) ∧ decode 0x6D6D = .ok (.extuW 6 13) ∧
    decode 0x0D6F = .ok (.macL 6 13) ∧ decode 0x4D6F = .ok (.macW 6 13) ∧ decode 0x0D67 = .ok (.mulL 6 13) ∧
    decode 0x2D6F = .ok (.mulsW 6 13) ∧ decode 0x2D6E = .ok (.muluW 6 13) := by decide

theorem test_decode_arithmetic_3 :
    decode 0x6D6B = .ok (.neg 6 13) ∧ decode 0x6D6A = .ok (.negc 6 13) ∧ decode 0x3D68 = .ok (.sub 6 13) ∧
    decode 0x3D6A = .ok (.subc 6 13) ∧ decode 0x3D6B = .ok (.subv 6 13) := by decide

theorem test_decode_logic_1 :
    decode 0x2D69 = .ok (.andReg 6 13) ∧ decode 0xC9A5 = .ok (.andImm 0xA5) ∧ decode 0xCDA5 = .ok (.andB 0xA5) ∧
    decode 0x6D67 = .ok (.not 6 13) ∧ decode 0x2D6B = .ok (.orReg 6 13) ∧ decode 0xCBA5 = .ok (.orImm 0xA5) ∧
    decode 0xCFA5 = .ok (.orB 0xA5) ∧ decode 0x4D1B = .ok (.tasB 13) ∧ decode 0x2D68 = .ok (.tstReg 6 13) ∧
    decode 0xC8A5 = .ok (.tstImm 0xA5) ∧ decode 0xCCA5 = .ok (.tstB 0xA5) ∧ decode 0x2D6A = .ok (.xorReg 6 13) ∧
    decode 0xCAA5 = .ok (.xorImm 0xA5) ∧ decode 0xCEA5 = .ok (.xorB 0xA5) := by decide

theorem test_decode_shift_1 :
    decode 0x4D04 = .ok (.rotl 13) ∧ decode 0x4D05 = .ok (.rotr 13) ∧ decode 0x4D24 = .ok (.rotcl 13) ∧
    decode 0x4D25 = .ok (.rotcr 13) ∧ decode 0x4D20 = .ok (.shal 13) ∧ decode 0x4D21 = .ok (.shar 13) ∧
    decode 0x4D00 = .ok (.shll 13) ∧ decode 0x4D01 = .ok (.shlr 13) ∧ decode 0x4D08 = .ok (.shll2 13) ∧
    decode 0x4D09 = .ok (.shlr2 13) ∧ decode 0x4D18 = .ok (.shll8 13) ∧ decode 0x4D19 = .ok (.shlr8 13) ∧
    decode 0x4D28 = .ok (.shll16 13) ∧ decode 0x4D29 = .ok (.shlr16 13) := by decide

theorem test_decode_branch_1 :
    decode 0x8BA5 = .ok (.bf 0xA5) ∧ decode 0x8FA5 = .ok (.bfS 0xA5) ∧ decode 0x89A5 = .ok (.bt 0xA5) ∧
    decode 0x8DA5 = .ok (.btS 0xA5) ∧ decode 0xA9A5 = .ok (.bra 0x9A5) ∧ decode 0x0623 = .ok (.braf 6) ∧
    decode 0xB9A5 = .ok (.bsr 0x9A5) ∧ decode 0x0603 = .ok (.bsrf 6) ∧ decode 0x462B = .ok (.jmp 6) ∧
    decode 0x460B = .ok (.jsr 6) ∧ decode 0x000B = .ok .rts := by decide

theorem test_decode_system_control_1 :
    decode 0x0008 = .ok .clrt ∧ decode 0x0028 = .ok .clrmac ∧ decode 0x460E = .ok (.ldcSr 6) ∧
    decode 0x461E = .ok (.ldcGbr 6) ∧ decode 0x462E = .ok (.ldcVbr 6) ∧ decode 0x4607 = .ok (.ldcLSr 6) ∧
    decode 0x4617 = .ok (.ldcLGbr 6) ∧ decode 0x4627 = .ok (.ldcLVbr 6) ∧ decode 0x460A = .ok (.ldsMach 6) ∧
    decode 0x461A = .ok (.ldsMacl 6) ∧ decode 0x462A = .ok (.ldsPr 6) ∧ decode 0x4606 = .ok (.ldsLMach 6) ∧
    decode 0x4616 = .ok (.ldsLMacl 6) ∧ decode 0x4626 = .ok (.ldsLPr 6) := by decide

theorem test_decode_system_control_2 :
    decode 0x0009 = .ok .nop ∧ decode 0x002B = .ok .rte ∧ decode 0x0018 = .ok .sett ∧ decode 0x001B = .ok .sleep ∧
    decode 0x0D02 = .ok (.stcSr 13) ∧ decode 0x0D12 = .ok (.stcGbr 13) ∧ decode 0x0D22 = .ok (.stcVbr 13) ∧
    decode 0x4D03 = .ok (.stcLSr 13) ∧ decode 0x4D13 = .ok (.stcLGbr 13) ∧ decode 0x4D23 = .ok (.stcLVbr 13) ∧
    decode 0x0D0A = .ok (.stsMach 13) ∧ decode 0x0D1A = .ok (.stsMacl 13) ∧ decode 0x0D2A = .ok (.stsPr 13) ∧
    decode 0x4D02 = .ok (.stsLMach 13) := by decide

theorem test_decode_system_control_3 :
    decode 0x4D12 = .ok (.stsLMacl 13) ∧ decode 0x4D22 = .ok (.stsLPr 13) ∧
    decode 0xC3A5 = .ok (.trapa 0xA5) := by decide

theorem test_decode_floating_point_1 :
    decode 0xFD5D = .ok (.fabs 13) ∧ decode 0xFD60 = .ok (.fadd 6 13) ∧ decode 0xFD64 = .ok (.fcmpEq 6 13) ∧
    decode 0xFD65 = .ok (.fcmpGt 6 13) ∧ decode 0xFD63 = .ok (.fdiv 6 13) ∧ decode 0xFD8D = .ok (.fldi0 13) ∧
    decode 0xFD9D = .ok (.fldi1 13) ∧ decode 0xF61D = .ok (.flds 6) ∧ decode 0xFD2D = .ok (.float 13) ∧
    decode 0xFD6E = .ok (.fmac 6 13) ∧ decode 0xFD6C = .ok (.fmov 6 13) ∧ decode 0xFD66 = .ok (.fmovLoadIdx 6 13) ∧
    decode 0xFD69 = .ok (.fmovLoadInc 6 13) ∧ decode 0xFD68 = .ok (.fmovLoad 6 13) := by decide

theorem test_decode_floating_point_2 :
    decode 0xFD67 = .ok (.fmovStoreIdx 6 13) ∧ decode 0xFD6B = .ok (.fmovStoreDec 6 13) ∧
    decode 0xFD6A = .ok (.fmovStore 6 13) ∧ decode 0xFD62 = .ok (.fmul 6 13) ∧ decode 0xFD4D = .ok (.fneg 13) ∧
    decode 0xFD0D = .ok (.fsts 13) ∧ decode 0xFD61 = .ok (.fsub 6 13) ∧ decode 0xF63D = .ok (.ftrc 6) := by decide

theorem test_decode_fpu_cpu_1 :
    decode 0x466A = .ok (.ldsFpscr 6) ∧ decode 0x465A = .ok (.ldsFpul 6) ∧ decode 0x4666 = .ok (.ldsLFpscr 6) ∧
    decode 0x4656 = .ok (.ldsLFpul 6) ∧ decode 0x0D6A = .ok (.stsFpscr 13) ∧ decode 0x0D5A = .ok (.stsFpul 13) ∧
    decode 0x4D62 = .ok (.stsLFpscr 13) ∧ decode 0x4D52 = .ok (.stsLFpul 13) := by decide

/-! ### One step of every instruction -/

/-- MOV #imm,Rn; 95_test_vectors line 47. -/
theorem test_movImm : gives 0xE180 []
    [(.r 1, 0xFFFFFF80)] = true := by decide

/-- MOV.W @(disp,PC),Rn; 97_test_vectors_derived line 34. -/
theorem test_movWPcRel : gives 0x91FF [(.pc, 0x1000), (.half 0x1202, 0xFFFE)]
    [(.r 1, 0xFFFFFFFE)] = true := by decide

/-- MOV.L @(disp,PC),Rn; 97_test_vectors_derived line 35. -/
theorem test_movLPcRel : gives 0xD100 [(.pc, 0x1002), (.long 0x1004, 0x13579BDF)]
    [(.r 1, 0x13579BDF)] = true := by decide

/-- MOV Rm,Rn; 95_test_vectors line 48. -/
theorem test_movReg : gives 0x6103 [(.r 0, 0xFFFFFFFF), (.r 1, 0)]
    [(.r 1, 0xFFFFFFFF)] = true := by decide

/-- MOV.B Rm,@Rn; 97_test_vectors_derived line 14. -/
theorem test_movBStore : gives 0x2100 [(.r 0, 0x12345678), (.r 1, 0x2003)]
    [(.byte 0x2003, 0x78)] = true := by decide

/-- MOV.W Rm,@Rn; 95_test_vectors line 49. -/
theorem test_movWStore : gives 0x2101 [(.r 0, 0xFFFF7F80), (.r 1, 0x2000)]
    [(.half 0x2000, 0x7F80)] = true := by decide

/-- MOV.L Rm,@Rn; 97_test_vectors_derived line 15. -/
theorem test_movLStore : gives 0x2102 [(.r 0, 0x11223344), (.r 1, 0x2000)]
    [(.byte 0x2000, 0x11), (.byte 0x2001, 0x22), (.byte 0x2002, 0x33), (.byte 0x2003, 0x44)] = true := by decide

/-- MOV.B @Rm,Rn; 95_test_vectors line 50. -/
theorem test_movBLoad : gives 0x6100 [(.r 0, 0x2000), (.r 1, 0), (.byte 0x2000, 0x80)]
    [(.r 1, 0xFFFFFF80)] = true := by decide

/-- MOV.W @Rm,Rn; 97_test_vectors_derived line 16. -/
theorem test_movWLoad : gives 0x6211 [(.r 1, 0x2000), (.half 0x2000, 0x8000)]
    [(.r 2, 0xFFFF8000)] = true := by decide

/-- MOV.L @Rm,Rn; 97_test_vectors_derived line 17. -/
theorem test_movLLoad : gives 0x6112 [(.r 1, 0x2000), (.long 0x2000, 0xDEADBEEF)]
    [(.r 1, 0xDEADBEEF)] = true := by decide

/-- MOV.B Rm,@-Rn; 97_test_vectors_derived line 18. -/
theorem test_movBStoreDec : gives 0x2104 [(.r 0, 0xAB), (.r 1, 0)]
    [(.r 1, 0xFFFFFFFF), (.byte 0xFFFFFFFF, 0xAB)] = true := by decide

/-- MOV.W Rm,@-Rn; 95_test_vectors line 51. -/
theorem test_movWStoreDec : gives 0x2105 [(.r 0, 0xAAAAAAAA), (.r 1, 0xFFFF7F80)]
    [(.r 1, 0xFFFF7F7E), (.half 0xFFFF7F7E, 0xAAAA)] = true := by decide

/-- MOV.L Rm,@-Rn; 97_test_vectors_derived line 19. -/
theorem test_movLStoreDec : gives 0x2116 [(.r 1, 0x2004)]
    [(.r 1, 0x2000), (.long 0x2000, 0x2004)] = true := by decide

/-- MOV.B @Rm+,Rn; 97_test_vectors_derived line 20. -/
theorem test_movBLoadInc : gives 0x6114 [(.r 1, 0x2004), (.byte 0x2004, 0x85)]
    [(.r 1, 0xFFFFFF85)] = true := by decide

/-- MOV.W @Rm+,Rn; 97_test_vectors_derived line 21. -/
theorem test_movWLoadInc : gives 0x6215 [(.r 1, 0x2004), (.half 0x2004, 0x7FFF)]
    [(.r 1, 0x2006), (.r 2, 0x7FFF)] = true := by decide

/-- MOV.L @Rm+,Rn; 95_test_vectors line 52. -/
theorem test_movLLoadInc : gives 0x6106 [(.r 0, 0x12345670), (.long 0x12345670, 0xCAFEF00D)]
    [(.r 0, 0x12345674), (.r 1, 0xCAFEF00D)] = true := by decide

/-- MOV.B R0,@(disp,Rn); 97_test_vectors_derived line 22. -/
theorem test_movBStoreDisp : gives 0x801F [(.r 0, 0x1FF), (.r 1, 0x2000)]
    [(.byte 0x200F, 0xFF)] = true := by decide

/-- MOV.W R0,@(disp,Rn); 97_test_vectors_derived line 23. -/
theorem test_movWStoreDisp : gives 0x811F [(.r 0, 0xABCD1234), (.r 1, 0x2000)]
    [(.half 0x201E, 0x1234)] = true := by decide

/-- MOV.L Rm,@(disp,Rn); 95_test_vectors line 58. -/
theorem test_movLStoreDisp : gives 0x110F [(.r 0, 0xFFFF7F80), (.r 1, 0x3000)]
    [(.long 0x303C, 0xFFFF7F80)] = true := by decide

/-- MOV.B @(disp,Rm),R0; 97_test_vectors_derived line 24. -/
theorem test_movBLoadDisp : gives 0x8413 [(.r 1, 0x2000), (.byte 0x2003, 0xFE)]
    [(.r 0, 0xFFFFFFFE)] = true := by decide

/-- MOV.W @(disp,Rm),R0; 97_test_vectors_derived line 25. -/
theorem test_movWLoadDisp : gives 0x8511 [(.r 1, 0x2000), (.half 0x2002, 0x8765)]
    [(.r 0, 0xFFFF8765)] = true := by decide

/-- MOV.L @(disp,Rm),Rn; 95_test_vectors line 57. -/
theorem test_movLLoadDisp : gives 0x5102 [(.r 0, 0x3000), (.long 0x3008, 0x12345670)]
    [(.r 1, 0x12345670)] = true := by decide

/-- MOV.B Rm,@(R0,Rn); 95_test_vectors line 53. -/
theorem test_movBStoreIdx : gives 0x0214 [(.r 2, 4), (.r 0, 0x10000000), (.r 1, 0x123456A5)]
    [(.byte 0x10000004, 0xA5)] = true := by decide

/-- MOV.W Rm,@(R0,Rn); from R128, example. -/
theorem test_movWStoreIdx : gives 0x0215 [(.r 2, 4), (.r 0, 0x10000000), (.r 1, 0x0000BEEF)]
    [(.half 0x10000004, 0xBEEF)] = true := by decide

/-- MOV.L Rm,@(R0,Rn); 97_test_vectors_derived line 27. -/
theorem test_movLStoreIdx : gives 0x0026 [(.r 0, 0x1000), (.r 2, 0x55)]
    [(.long 0x2000, 0x55)] = true := by decide

/-- MOV.B @(R0,Rm),Rn; 97_test_vectors_derived line 28. -/
theorem test_movBLoadIdx : gives 0x001C [(.r 0, 0xFFFFFFFF), (.r 1, 0x2001), (.byte 0x2000, 0x7F)]
    [(.r 0, 0x7F)] = true := by decide

/-- MOV.W @(R0,Rm),Rn; 95_test_vectors line 54. -/
theorem test_movWLoadIdx : gives 0x012D [(.r 2, 4), (.r 0, 0x10000000), (.half 0x10000004, 0x8001)]
    [(.r 1, 0xFFFF8001)] = true := by decide

/-- MOV.L @(R0,Rm),Rn; 97_test_vectors_derived line 29. -/
theorem test_movLLoadIdx : gives 0x031E [(.r 0, 8), (.r 1, 0x2000), (.long 0x2008, 0x1020304)]
    [(.r 3, 0x1020304)] = true := by decide

/-- MOV.B R0,@(disp,GBR); 95_test_vectors line 56. -/
theorem test_movBStoreGbr : gives 0xC001 [(.gbr, 0x3000), (.r 0, 0xFFFF7F80)]
    [(.byte 0x3001, 0x80)] = true := by decide

/-- MOV.W R0,@(disp,GBR); 97_test_vectors_derived line 30. -/
theorem test_movWStoreGbr : gives 0xC1FF [(.r 0, 0xBEEF), (.gbr, 0x3000)]
    [(.half 0x31FE, 0xBEEF)] = true := by decide

/-- MOV.L R0,@(disp,GBR); 97_test_vectors_derived line 31. -/
theorem test_movLStoreGbr : gives 0xC2FF [(.r 0, 0xCAFEBABE), (.gbr, 0x3000)]
    [(.long 0x33FC, 0xCAFEBABE)] = true := by decide

/-- MOV.B @(disp,GBR),R0; 97_test_vectors_derived line 32. -/
theorem test_movBLoadGbr : gives 0xC4FF [(.gbr, 0x3000), (.byte 0x30FF, 0x80)]
    [(.r 0, 0xFFFFFF80)] = true := by decide

/-- MOV.W @(disp,GBR),R0; 97_test_vectors_derived line 33. -/
theorem test_movWLoadGbr : gives 0xC501 [(.gbr, 0x3000), (.half 0x3002, 0x102)]
    [(.r 0, 0x102)] = true := by decide

/-- MOV.L @(disp,GBR),R0; 95_test_vectors line 55. -/
theorem test_movLLoadGbr : gives 0xC602 [(.gbr, 0x3000), (.long 0x3008, 0x12345670)]
    [(.r 0, 0x12345670)] = true := by decide

/-- MOVA @(disp,PC),R0; 97_test_vectors_derived line 37. -/
theorem test_mova : gives 0xC702 [(.pc, 0x1002)]
    [(.r 0, 0x100C)] = true := by decide

/-- MOVT Rn; 97_test_vectors_derived line 38. -/
theorem test_movt : gives 0x0729 [(.t, 1), (.r 7, 0xFFFFFFFF)]
    [(.r 7, 1)] = true := by decide

/-- SWAP.B Rm,Rn; 95_test_vectors line 59. -/
theorem test_swapB : gives 0x6108 [(.r 0, 0x12345678)]
    [(.r 1, 0x12347856)] = true := by decide

/-- SWAP.W Rm,Rn; 95_test_vectors line 60. -/
theorem test_swapW : gives 0x6109 [(.r 0, 0x12345678)]
    [(.r 1, 0x56781234)] = true := by decide

/-- XTRCT Rm,Rn; 95_test_vectors line 61. -/
theorem test_xtrct : gives 0x210D [(.r 0, 0x1234567), (.r 1, 0x89ABCDEF)]
    [(.r 1, 0x456789AB)] = true := by decide

/-- ADD Rm,Rn; 95_test_vectors line 143. -/
theorem test_addReg : gives 0x310C [(.r 0, 0x7FFFFFFF), (.r 1, 1)]
    [(.r 1, 0x80000000)] = true := by decide

/-- ADD #imm,Rn; 95_test_vectors line 144. -/
theorem test_addImm : gives 0x7201 [(.r 2, 0)]
    [(.r 2, 1)] = true := by decide

/-- ADDC Rm,Rn; 95_test_vectors line 146. -/
theorem test_addc : gives 0x313E [(.t, 0), (.r 1, 1), (.r 3, 0xFFFFFFFF)]
    [(.r 1, 0), (.t, 1)] = true := by decide

/-- ADDV Rm,Rn; 95_test_vectors line 148. -/
theorem test_addv : gives 0x310F [(.r 0, 1), (.r 1, 0x7FFFFFFE), (.t, 0)]
    [(.t, 0), (.r 1, 0x7FFFFFFF)] = true := by decide

/-- CMP/EQ #imm,R0; 97_test_vectors_derived line 59. -/
theorem test_cmpEqImm : gives 0x88FF [(.r 0, 0xFFFFFFFF), (.t, 0)]
    [(.t, 1)] = true := by decide

/-- CMP/EQ Rm,Rn; 97_test_vectors_derived line 61. -/
theorem test_cmpEq : gives 0x3100 [(.r 0, 5), (.r 1, 5), (.t, 0)]
    [(.t, 1)] = true := by decide

/-- CMP/HS Rm,Rn; 95_test_vectors line 151. -/
theorem test_cmpHs : gives 0x3102 [(.r 0, 0x7FFFFFFF), (.r 1, 0x80000000), (.t, 0)]
    [(.t, 1)] = true := by decide

/-- CMP/GE Rm,Rn; 95_test_vectors line 150. -/
theorem test_cmpGe : gives 0x3103 [(.r 0, 0x7FFFFFFF), (.r 1, 0x80000000), (.t, 1)]
    [(.t, 0)] = true := by decide

/-- CMP/HI Rm,Rn; 97_test_vectors_derived line 62. -/
theorem test_cmpHi : gives 0x3106 [(.r 0, 1), (.r 1, 0xFFFFFFFF), (.t, 0)]
    [(.t, 1)] = true := by decide

/-- CMP/GT Rm,Rn; 97_test_vectors_derived line 63. -/
theorem test_cmpGt : gives 0x3107 [(.r 0, 1), (.r 1, 0xFFFFFFFF), (.t, 1)]
    [(.t, 0)] = true := by decide

/-- CMP/PL Rn; 97_test_vectors_derived line 67. -/
theorem test_cmpPl : gives 0x4115 [(.r 1, 0), (.t, 1)]
    [(.t, 0)] = true := by decide

/-- CMP/PZ Rn; 97_test_vectors_derived line 68. -/
theorem test_cmpPz : gives 0x4111 [(.r 1, 0), (.t, 0)]
    [(.t, 1)] = true := by decide

/-- CMP/STR Rm,Rn; 95_test_vectors line 152. -/
theorem test_cmpStr : gives 0x232C [(.r 2, 0x41424344), (.r 3, 0x5859435A), (.t, 0)]
    [(.t, 1)] = true := by decide

/-- DIV1 Rm,Rn; 97_test_vectors_derived line 75. -/
theorem test_div1 : gives 0x3104 [(.r 0, 3), (.r 1, 8), (.sr, 0)]
    [(.sr, 1), (.r 1, 0xD)] = true := by decide

/-- DIV0S Rm,Rn; 97_test_vectors_derived line 72. -/
theorem test_div0s : gives 0x2107 [(.r 0, 0x80000000), (.r 1, 1), (.sr, 0)]
    [(.sr, 0x201)] = true := by decide

/-- DIV0U; 97_test_vectors_derived line 74. -/
theorem test_div0u : gives 0x0019 [(.sr, 0xFFF0FFF)]
    [(.sr, 0xFFF0CFE)] = true := by decide

/-- DMULS.L Rm,Rn; 95_test_vectors line 153. -/
theorem test_dmulsL : gives 0x310D [(.r 0, 0xFFFFFFFE), (.r 1, 0x5555)]
    [(.mach, 0xFFFFFFFF), (.macl, 0xFFFF5556)] = true := by decide

/-- DMULU.L Rm,Rn; 95_test_vectors line 154. -/
theorem test_dmuluL : gives 0x3105 [(.r 0, 0xFFFFFFFE), (.r 1, 0x5555)]
    [(.mach, 0x5554), (.macl, 0xFFFF5556)] = true := by decide

/-- DT Rn; 97_test_vectors_derived line 80. -/
theorem test_dt : gives 0x4110 [(.r 1, 1), (.t, 0)]
    [(.r 1, 0), (.t, 1)] = true := by decide

/-- EXTS.B Rm,Rn; 95_test_vectors line 155. -/
theorem test_extsB : gives 0x610E [(.r 0, 0x80)]
    [(.r 1, 0xFFFFFF80)] = true := by decide

/-- EXTS.W Rm,Rn; 95_test_vectors line 156. -/
theorem test_extsW : gives 0x610F [(.r 0, 0x8000)]
    [(.r 1, 0xFFFF8000)] = true := by decide

/-- EXTU.B Rm,Rn; 95_test_vectors line 157. -/
theorem test_extuB : gives 0x610C [(.r 0, 0xFFFFFF80)]
    [(.r 1, 0x80)] = true := by decide

/-- EXTU.W Rm,Rn; 95_test_vectors line 158. -/
theorem test_extuW : gives 0x610D [(.r 0, 0xFFFF8000)]
    [(.r 1, 0x8000)] = true := by decide

/-- MAC.L @Rm+,@Rn+; 97_test_vectors_derived line 108. -/
theorem test_macL : gives 0x010F
    [(.r 0, 0x2000), (.r 1, 0x3000), (.s, 0), (.mach, 0x7FFFFFFF), (.macl, 0xFFFFFFFF), (.long 0x2000, 1),
      (.long 0x3000, 1)]
    [(.r 0, 0x2004), (.r 1, 0x3004), (.mach, 0x80000000), (.macl, 0)] = true := by decide

/-- MAC.W @Rm+,@Rn+; 97_test_vectors_derived line 102. -/
theorem test_macW : gives 0x410F
    [(.r 0, 0x2000), (.r 1, 0x3000), (.s, 0), (.mach, 0), (.macl, 0xFFFFFFFF), (.half 0x2000, 2), (.half 0x3000, 3)]
    [(.r 0, 0x2002), (.r 1, 0x3002), (.mach, 1), (.macl, 5)] = true := by decide

/-- MUL.L Rm,Rn; 95_test_vectors line 159. -/
theorem test_mulL : gives 0x0107 [(.r 0, 0xFFFFFFFE), (.r 1, 0x5555)]
    [(.macl, 0xFFFF5556)] = true := by decide

/-- MULS.W Rm,Rn; 95_test_vectors line 160. -/
theorem test_mulsW : gives 0x210F [(.r 0, 0xFFFFFFFE), (.r 1, 0x5555)]
    [(.macl, 0xFFFF5556)] = true := by decide

/-- MULU.W Rm,Rn; 95_test_vectors line 161. -/
theorem test_muluW : gives 0x210E [(.r 0, 2), (.r 1, 0xFFFFAAAA)]
    [(.macl, 0x15554)] = true := by decide

/-- NEG Rm,Rn; 95_test_vectors line 162. -/
theorem test_neg : gives 0x610B [(.r 0, 1)]
    [(.r 1, 0xFFFFFFFF)] = true := by decide

/-- NEGC Rm,Rn; 95_test_vectors line 163. -/
theorem test_negc : gives 0x611A [(.r 1, 1), (.t, 0)]
    [(.r 1, 0xFFFFFFFF), (.t, 1)] = true := by decide

/-- SUB Rm,Rn; 95_test_vectors line 165. -/
theorem test_sub : gives 0x3108 [(.r 0, 1), (.r 1, 0x80000000)]
    [(.r 1, 0x7FFFFFFF)] = true := by decide

/-- SUBC Rm,Rn; 95_test_vectors line 166. -/
theorem test_subc : gives 0x313A [(.t, 0), (.r 1, 0), (.r 3, 1)]
    [(.r 1, 0xFFFFFFFF), (.t, 1)] = true := by decide

/-- SUBV Rm,Rn; 95_test_vectors line 168. -/
theorem test_subv : gives 0x310B [(.r 0, 2), (.r 1, 0x80000001), (.t, 0)]
    [(.r 1, 0x7FFFFFFF), (.t, 1)] = true := by decide

/-- AND Rm,Rn; 95_test_vectors line 241. -/
theorem test_andReg : gives 0x2109 [(.r 0, 0xAAAAAAAA), (.r 1, 0x55555555)]
    [(.r 1, 0)] = true := by decide

/-- AND #imm,R0; 95_test_vectors line 242. -/
theorem test_andImm : gives 0xC90F [(.r 0, 0xFFFFFFFF)]
    [(.r 0, 0xF)] = true := by decide

/-- AND.B #imm,@(R0,GBR); 95_test_vectors line 243. -/
theorem test_andB : gives 0xCD80 [(.r 0, 0x10), (.gbr, 0x3000), (.byte 0x3010, 0xA5)]
    [(.byte 0x3010, 0x80)] = true := by decide

/-- NOT Rm,Rn; 95_test_vectors line 244. -/
theorem test_not : gives 0x6107 [(.r 0, 0xAAAAAAAA)]
    [(.r 1, 0x55555555)] = true := by decide

/-- OR Rm,Rn; 95_test_vectors line 245. -/
theorem test_orReg : gives 0x210B [(.r 0, 0xAAAA5555), (.r 1, 0x55550000)]
    [(.r 1, 0xFFFF5555)] = true := by decide

/-- OR #imm,R0; 95_test_vectors line 246. -/
theorem test_orImm : gives 0xCBF0 [(.r 0, 8)]
    [(.r 0, 0xF8)] = true := by decide

/-- OR.B #imm,@(R0,GBR); 95_test_vectors line 247. -/
theorem test_orB : gives 0xCF50 [(.r 0, 0x10), (.gbr, 0x3000), (.byte 0x3010, 0xA5)]
    [(.byte 0x3010, 0xF5)] = true := by decide

/-- TAS.B @Rn; 97_test_vectors_derived line 128. -/
theorem test_tasB : gives 0x471B [(.r 7, 0x1000), (.t, 0), (.byte 0x1000, 0)]
    [(.t, 1), (.byte 0x1000, 0x80)] = true := by decide

/-- TST Rm,Rn; 95_test_vectors line 251. -/
theorem test_tstReg : gives 0x2008 [(.r 0, 0), (.t, 0)]
    [(.t, 1)] = true := by decide

/-- TST #imm,R0; 95_test_vectors line 252. -/
theorem test_tstImm : gives 0xC880 [(.r 0, 0xFFFFFF7F), (.t, 0)]
    [(.t, 1)] = true := by decide

/-- TST.B #imm,@(R0,GBR); 95_test_vectors line 253. -/
theorem test_tstB : gives 0xCCA5 [(.r 0, 0x10), (.gbr, 0x3000), (.t, 0), (.byte 0x3010, 0xA5)]
    [(.t, 0), (.byte 0x3010, 0xA5)] = true := by decide

/-- XOR Rm,Rn; 95_test_vectors line 248. -/
theorem test_xorReg : gives 0x210A [(.r 0, 0xAAAAAAAA), (.r 1, 0x55555555)]
    [(.r 1, 0xFFFFFFFF)] = true := by decide

/-- XOR #imm,R0; 95_test_vectors line 249. -/
theorem test_xorImm : gives 0xCAF0 [(.r 0, 0xFFFFFFFF)]
    [(.r 0, 0xFFFFFF0F)] = true := by decide

/-- XOR.B #imm,@(R0,GBR); 95_test_vectors line 250. -/
theorem test_xorB : gives 0xCEA5 [(.r 0, 0x10), (.gbr, 0x3000), (.byte 0x3010, 0xA5)]
    [(.byte 0x3010, 0)] = true := by decide

/-- ROTL Rn; 95_test_vectors line 264. -/
theorem test_rotl : gives 0x4004 [(.r 0, 0x80000000), (.t, 0)]
    [(.r 0, 1), (.t, 1)] = true := by decide

/-- ROTR Rn; 95_test_vectors line 265. -/
theorem test_rotr : gives 0x4005 [(.r 0, 1), (.t, 0)]
    [(.r 0, 0x80000000), (.t, 1)] = true := by decide

/-- ROTCL Rn; 95_test_vectors line 262. -/
theorem test_rotcl : gives 0x4024 [(.r 0, 0x80000000), (.t, 0)]
    [(.r 0, 0), (.t, 1)] = true := by decide

/-- ROTCR Rn; 95_test_vectors line 263. -/
theorem test_rotcr : gives 0x4025 [(.r 0, 1), (.t, 1)]
    [(.t, 1), (.r 0, 0x80000000)] = true := by decide

/-- SHAL Rn; 95_test_vectors line 266. -/
theorem test_shal : gives 0x4020 [(.r 0, 0x80000001), (.t, 0)]
    [(.r 0, 2), (.t, 1)] = true := by decide

/-- SHAR Rn; 95_test_vectors line 267. -/
theorem test_shar : gives 0x4021 [(.r 0, 0x80000001), (.t, 0)]
    [(.r 0, 0xC0000000), (.t, 1)] = true := by decide

/-- SHLL Rn; 95_test_vectors line 268. -/
theorem test_shll : gives 0x4000 [(.r 0, 0x80000001), (.t, 0)]
    [(.r 0, 2), (.t, 1)] = true := by decide

/-- SHLR Rn; 95_test_vectors line 269. -/
theorem test_shlr : gives 0x4001 [(.r 0, 0x80000001), (.t, 0)]
    [(.r 0, 0x40000000), (.t, 1)] = true := by decide

/-- SHLL2 Rn; 95_test_vectors line 270. -/
theorem test_shll2 : gives 0x4008 [(.r 0, 0x12345678)]
    [(.r 0, 0x48D159E0)] = true := by decide

/-- SHLR2 Rn; 95_test_vectors line 273. -/
theorem test_shlr2 : gives 0x4009 [(.r 0, 0x12345678)]
    [(.r 0, 0x48D159E)] = true := by decide

/-- SHLL8 Rn; 95_test_vectors line 271. -/
theorem test_shll8 : gives 0x4018 [(.r 0, 0x12345678)]
    [(.r 0, 0x34567800)] = true := by decide

/-- SHLR8 Rn; 95_test_vectors line 274. -/
theorem test_shlr8 : gives 0x4019 [(.r 0, 0x12345678)]
    [(.r 0, 0x123456)] = true := by decide

/-- SHLL16 Rn; 95_test_vectors line 272. -/
theorem test_shll16 : gives 0x4028 [(.r 0, 0x12345678)]
    [(.r 0, 0x56780000)] = true := by decide

/-- SHLR16 Rn; 95_test_vectors line 275. -/
theorem test_shlr16 : gives 0x4029 [(.r 0, 0x12345678)]
    [(.r 0, 0x1234)] = true := by decide

/-- BF label; 97_test_vectors_derived line 162. -/
theorem test_bf : gives 0x8B02 [(.pc, 0x1000), (.t, 0)]
    [(.pc, 0x1008)] = true := by decide

/-- BF/S label; 97_test_vectors_derived line 163. -/
theorem test_bfS : gives 0x8F02 [(.pc, 0x1000), (.t, 0)]
    [(.pc, 0x1002), (.target, 0x1008)] = true := by decide

/-- BT label; 97_test_vectors_derived line 158. -/
theorem test_bt : gives 0x89FE [(.pc, 0x1000), (.t, 1)]
    [(.pc, 0x1000)] = true := by decide

/-- BT/S label; 97_test_vectors_derived line 164. -/
theorem test_btS : gives 0x8D02 [(.pc, 0x1000), (.t, 0)]
    [(.pc, 0x1002)] = true := by decide

/-- BRA label; 97_test_vectors_derived line 165. -/
theorem test_bra : gives 0xAFFF [(.pc, 0x1000)]
    [(.pc, 0x1002), (.target, 0x1002)] = true := by decide

/-- BRAF Rm; 97_test_vectors_derived line 169. -/
theorem test_braf : gives 0x0123 [(.pc, 0x1000), (.r 1, 0xFFFFFFFC)]
    [(.pc, 0x1002), (.target, 0x1000)] = true := by decide

/-- BSR label; 97_test_vectors_derived line 168. -/
theorem test_bsr : gives 0xB000 [(.pc, 0x1000), (.pr, 0)]
    [(.pc, 0x1002), (.target, 0x1004), (.pr, 0x1004)] = true := by decide

/-- BSRF Rm; 97_test_vectors_derived line 170. -/
theorem test_bsrf : gives 0x0103 [(.pc, 0x1000), (.r 1, 0x100), (.pr, 0)]
    [(.pc, 0x1002), (.target, 0x1104), (.pr, 0x1004)] = true := by decide

/-- JMP @Rm; 97_test_vectors_derived line 171. -/
theorem test_jmp : gives 0x412B [(.pc, 0x1000), (.r 1, 0x2001)]
    [(.pc, 0x1002), (.target, 0x2001)] = true := by decide

/-- JSR @Rm; 97_test_vectors_derived line 172. -/
theorem test_jsr : gives 0x4F0B [(.pc, 0x1000), (.r 15, 0x4000), (.pr, 0)]
    [(.pc, 0x1002), (.target, 0x4000), (.pr, 0x1004)] = true := by decide

/-- RTS; 97_test_vectors_derived line 173. -/
theorem test_rts : gives 0x000B [(.pc, 0x1000), (.pr, 0x1234)]
    [(.pc, 0x1002), (.target, 0x1234)] = true := by decide

/-- CLRT; 95_test_vectors line 469. -/
theorem test_clrt : gives 0x0008 [(.t, 1)]
    [(.t, 0)] = true := by decide

/-- CLRMAC; 97_test_vectors_derived line 227. -/
theorem test_clrmac : gives 0x0028 [(.mach, 0x12345678), (.macl, 0x9ABCDEF0)]
    [(.mach, 0), (.macl, 0)] = true := by decide

/-- LDC Rm,SR; 95_test_vectors line 472. -/
theorem test_ldcSr : gives 0x400E [(.r 0, 0xFFFFFFFF), (.sr, 0)]
    [(.sr, 0xFFF0FFF)] = true := by decide

/-- LDC Rm,GBR; 97_test_vectors_derived line 209. -/
theorem test_ldcGbr : gives 0x411E [(.r 1, 0xFFFFFFFF)]
    [(.gbr, 0xFFFFFFFF)] = true := by decide

/-- LDC Rm,VBR; 97_test_vectors_derived line 210. -/
theorem test_ldcVbr : gives 0x412E [(.r 1, 0x12345679)]
    [(.vbr, 0x12345679)] = true := by decide

/-- LDC.L @Rm+,SR; 97_test_vectors_derived line 213. -/
theorem test_ldcLSr : gives 0x4F07 [(.r 15, 0x4000), (.sr, 0), (.long 0x4000, 0xF00F00F1)]
    [(.sr, 0xF00F1), (.r 15, 0x4004)] = true := by decide

/-- LDC.L @Rm+,GBR; 95_test_vectors line 473. -/
theorem test_ldcLGbr : gives 0x4F17 [(.r 15, 0x10000000), (.long 0x10000000, 0x89ABCDEF)]
    [(.r 15, 0x10000004), (.gbr, 0x89ABCDEF)] = true := by decide

/-- LDC.L @Rm+,VBR; 97_test_vectors_derived line 214. -/
theorem test_ldcLVbr : gives 0x4127 [(.r 1, 0x4000), (.long 0x4000, 0x8000)]
    [(.r 1, 0x4004), (.vbr, 0x8000)] = true := by decide

/-- LDS Rm,MACH; 97_test_vectors_derived line 219. -/
theorem test_ldsMach : gives 0x410A [(.r 1, 0xFFFFFFFF)]
    [(.mach, 0xFFFFFFFF)] = true := by decide

/-- LDS Rm,MACL; 97_test_vectors_derived line 220. -/
theorem test_ldsMacl : gives 0x411A [(.r 1, 0x12345678)]
    [(.macl, 0x12345678)] = true := by decide

/-- LDS Rm,PR; 95_test_vectors line 474. -/
theorem test_ldsPr : gives 0x402A [(.r 0, 0x12345678), (.pr, 0)]
    [(.pr, 0x12345678)] = true := by decide

/-- LDS.L @Rm+,MACH; 97_test_vectors_derived line 221. -/
theorem test_ldsLMach : gives 0x4106 [(.r 1, 0x4000), (.long 0x4000, 0x87654321)]
    [(.r 1, 0x4004), (.mach, 0x87654321)] = true := by decide

/-- LDS.L @Rm+,MACL; 95_test_vectors line 475. -/
theorem test_ldsLMacl : gives 0x4F16 [(.r 15, 0x10000000), (.long 0x10000000, 0x89ABCDEF)]
    [(.r 15, 0x10000004), (.macl, 0x89ABCDEF)] = true := by decide

/-- LDS.L @Rm+,PR; 97_test_vectors_derived line 222. -/
theorem test_ldsLPr : gives 0x4F26 [(.r 15, 0x4000), (.long 0x4000, 0x1238)]
    [(.r 15, 0x4004), (.pr, 0x1238)] = true := by decide

/-- NOP; from R287. -/
theorem test_nop : gives 0x0009 [(.pc, 0x1000)]
    [(.pc, 0x1002)] = true := by decide

/-- RTE; from R288, worked example. -/
theorem test_rte : gives 0x002B
    [(.pc, 0x2000), (.r 15, 0x00FFFFF8), (.long 0x00FFFFF8, 0x00001236), (.long 0x00FFFFFC, 0x000000F1)]
    [(.r 15, 0x01000000), (.sr, 0x000000F1), (.target, 0x00001236), (.pc, 0x2002)] = true := by decide

/-- SETT; 95_test_vectors line 470. -/
theorem test_sett : gives 0x0018 [(.t, 0)]
    [(.t, 1)] = true := by decide

/-- SLEEP; from R290. -/
theorem test_sleep : gives 0x001B [(.pc, 0x1000)]
    [(.pc, 0x1002), (.asleep, 1)] = true := by decide

/-- STC SR,Rn; 95_test_vectors line 476. -/
theorem test_stcSr : gives 0x0002 [(.r 0, 0xFFFFFFFF), (.sr, 0)]
    [(.r 0, 0)] = true := by decide

/-- STC GBR,Rn; 97_test_vectors_derived line 215. -/
theorem test_stcGbr : gives 0x0112 [(.gbr, 0x11111111)]
    [(.r 1, 0x11111111)] = true := by decide

/-- STC VBR,Rn; 97_test_vectors_derived line 216. -/
theorem test_stcVbr : gives 0x0122 [(.vbr, 0x22222222)]
    [(.r 1, 0x22222222)] = true := by decide

/-- STC.L SR,@-Rn; 97_test_vectors_derived line 217. -/
theorem test_stcLSr : gives 0x4F03 [(.r 15, 0x4004), (.sr, 0x3F3)]
    [(.r 15, 0x4000), (.long 0x4000, 0x3F3)] = true := by decide

/-- STC.L GBR,@-Rn; 95_test_vectors line 477. -/
theorem test_stcLGbr : gives 0x4F13 [(.r 15, 0x10000004), (.gbr, 0x89ABCDEF)]
    [(.r 15, 0x10000000), (.long 0x10000000, 0x89ABCDEF)] = true := by decide

/-- STC.L VBR,@-Rn; 97_test_vectors_derived line 218. -/
theorem test_stcLVbr : gives 0x4123 [(.r 1, 0x4004), (.vbr, 0x8000)]
    [(.r 1, 0x4000), (.long 0x4000, 0x8000)] = true := by decide

/-- STS MACH,Rn; 95_test_vectors line 478. -/
theorem test_stsMach : gives 0x000A [(.r 0, 0xFFFFFFFF), (.mach, 0)]
    [(.r 0, 0)] = true := by decide

/-- STS MACL,Rn; 97_test_vectors_derived line 223. -/
theorem test_stsMacl : gives 0x011A [(.macl, 0x33333333)]
    [(.r 1, 0x33333333)] = true := by decide

/-- STS PR,Rn; 97_test_vectors_derived line 224. -/
theorem test_stsPr : gives 0x012A [(.pr, 0x44444444)]
    [(.r 1, 0x44444444)] = true := by decide

/-- STS.L MACH,@-Rn; 97_test_vectors_derived line 225. -/
theorem test_stsLMach : gives 0x4F02 [(.r 15, 0x4004), (.mach, 0x55555555)]
    [(.r 15, 0x4000), (.long 0x4000, 0x55555555)] = true := by decide

/-- STS.L MACL,@-Rn; 97_test_vectors_derived line 226. -/
theorem test_stsLMacl : gives 0x4F12 [(.r 15, 0x4004), (.macl, 0x66666666)]
    [(.r 15, 0x4000), (.long 0x4000, 0x66666666)] = true := by decide

/-- STS.L PR,@-Rn; 95_test_vectors line 479. -/
theorem test_stsLPr : gives 0x4F22 [(.r 15, 0x10000004), (.pr, 0x1234)]
    [(.r 15, 0x10000000), (.long 0x10000000, 0x1234)] = true := by decide

/-- TRAPA #imm; from R303, R410. -/
theorem test_trapa : gives 0xC320
    [(.pc, 0x1000), (.r 15, 0x2000), (.sr, 0xF1), (.vbr, 0x4000), (.long 0x4080, 0x00005000)]
    [(.pc, 0x5000), (.r 15, 0x1FF8), (.long 0x1FFC, 0xF1), (.long 0x1FF8, 0x1002)] = true := by decide

/-- FABS FRn; 95_test_vectors line 491. -/
theorem test_fabs : gives 0xF25D [(.fr 2, 0xC0800000)]
    [(.fr 2, 0x40800000)] = true := by decide

/-- FADD FRm,FRn; 95_test_vectors line 492. -/
theorem test_fadd : gives 0xF320 [(.fr 2, 0x40400000), (.fr 3, 0x3F800000)]
    [(.fr 3, 0x40800000)] = true := by decide

/-- FCMP/EQ FRm,FRn; 97_test_vectors_derived line 272. -/
theorem test_fcmpEq : gives 0xF104 [(.fr 0, 0x7FBFFFFF), (.fr 1, 0x7FBFFFFF), (.t, 1)]
    [(.fpscr, 0x40001), (.t, 0)] = true := by decide

/-- FCMP/GT FRm,FRn; 97_test_vectors_derived line 276. -/
theorem test_fcmpGt : gives 0xF105 [(.fr 0, 0x7FBFFFFF), (.fr 1, 0x3F800000), (.t, 1)]
    [(.fpscr, 0x50041), (.t, 0)] = true := by decide

/-- FDIV FRm,FRn; 95_test_vectors line 494. -/
theorem test_fdiv : gives 0xF563 [(.fr 5, 0x40800000), (.fr 6, 0x40400000)]
    [(.fr 5, 0x3FAAAAAA)] = true := by decide

/-- FLDI0 FRn; 95_test_vectors line 495. -/
theorem test_fldi0 : gives 0xF18D [(.fr 1, 0x12345678)]
    [(.fr 1, 0)] = true := by decide

/-- FLDI1 FRn; 95_test_vectors line 496. -/
theorem test_fldi1 : gives 0xF29D [(.fr 2, 0x12345678)]
    [(.fr 2, 0x3F800000)] = true := by decide

/-- FLDS FRm,FPUL; 97_test_vectors_derived line 302. -/
theorem test_flds : gives 0xF11D [(.fr 1, 0x7FC00000)]
    [(.fpscr, 0x40001), (.fpul, 0x7FC00000)] = true := by decide

/-- FLOAT FPUL,FRn; 97_test_vectors_derived line 286. -/
theorem test_float : gives 0xF12D [(.fpul, 0xFFFFFFFF)]
    [(.fr 1, 0xBF800000)] = true := by decide

/-- FMAC FR0,FRm,FRn; 95_test_vectors line 497. -/
theorem test_fmac : gives 0xF53E [(.fr 0, 0x40000000), (.fr 3, 0x40800000), (.fr 5, 0x3F800000)]
    [(.fr 5, 0x41100000)] = true := by decide

/-- FMOV FRm,FRn; 95_test_vectors line 506. -/
theorem test_fmov : gives 0xF65C [(.fr 5, 0x76543210)]
    [(.fr 6, 0x76543210)] = true := by decide

/-- FMOV.S @(R0,Rm),FRn; 95_test_vectors line 504. -/
theorem test_fmovLoadIdx : gives 0xF436 [(.r 0, 4), (.r 3, 0xC700040), (.long 0xC700044, 0xABCDEF)]
    [(.fr 4, 0xABCDEF)] = true := by decide

/-- FMOV.S @Rm+,FRn; 95_test_vectors line 502. -/
theorem test_fmovLoadInc : gives 0xF339 [(.r 3, 0xC700028), (.long 0xC700028, 0x40800000)]
    [(.r 3, 0xC70002C), (.fr 3, 0x40800000)] = true := by decide

/-- FMOV.S @Rm,FRn; 95_test_vectors line 500. -/
theorem test_fmovLoad : gives 0xF218 [(.r 1, 0xC700020), (.long 0xC700020, 0xABCDEF)]
    [(.fr 2, 0xABCDEF)] = true := by decide

/-- FMOV.S FRm,@(R0,Rn); 95_test_vectors line 505. -/
theorem test_fmovStoreIdx : gives 0xF357 [(.r 0, 0x28), (.r 3, 0xC700040), (.fr 5, 0x76543210)]
    [(.long 0xC700068, 0x76543210)] = true := by decide

/-- FMOV.S FRm,@-Rn; 95_test_vectors line 503. -/
theorem test_fmovStoreDec : gives 0xF34B [(.r 3, 0xC700044), (.fr 4, 0x1234567)]
    [(.r 3, 0xC700040), (.long 0xC700040, 0x1234567)] = true := by decide

/-- FMOV.S FRm,@Rn; 95_test_vectors line 501. -/
theorem test_fmovStore : gives 0xF32A [(.r 3, 0xC700028), (.fr 2, 0x40800000)]
    [(.long 0xC700028, 0x40800000)] = true := by decide

/-- FMUL FRm,FRn; 95_test_vectors line 507. -/
theorem test_fmul : gives 0xF322 [(.fr 2, 0x40000000), (.fr 3, 0x40800000)]
    [(.fr 3, 0x41000000)] = true := by decide

/-- FNEG FRn; 95_test_vectors line 508. -/
theorem test_fneg : gives 0xF24D [(.fr 2, 0x40800000)]
    [(.fr 2, 0xC0800000)] = true := by decide

/-- FSTS FPUL,FRn; 97_test_vectors_derived line 303. -/
theorem test_fsts : gives 0xF10D [(.fpul, 1)]
    [(.fr 1, 1)] = true := by decide

/-- FSUB FRm,FRn; 95_test_vectors line 509. -/
theorem test_fsub : gives 0xF301 [(.fr 0, 0x3F800000), (.fr 3, 0x40E00000)]
    [(.fr 3, 0x40C00000)] = true := by decide

/-- FTRC FRm,FPUL; 97_test_vectors_derived line 295. -/
theorem test_ftrc : gives 0xF13D [(.fr 1, 0x4F000000)]
    [(.fpul, 0x7FFFFFFF), (.fpscr, 0x50041)] = true := by decide

/-- LDS Rm,FPSCR; 95_test_vectors line 604. -/
theorem test_ldsFpscr : gives 0x446A [(.r 4, 0x40801)]
    [(.fpscr, 0x40801)] = true := by decide

/-- LDS Rm,FPUL; 97_test_vectors_derived line 328. -/
theorem test_ldsFpul : gives 0x415A [(.r 1, 0x7FC00000)]
    [(.fpul, 0x7FC00000)] = true := by decide

/-- LDS.L @Rm+,FPSCR; 95_test_vectors line 605. -/
theorem test_ldsLFpscr : gives 0x4866 [(.r 8, 0xC700134), (.long 0xC700134, 0x40C01)]
    [(.r 8, 0xC700138), (.fpscr, 0x40C01)] = true := by decide

/-- LDS.L @Rm+,FPUL; 97_test_vectors_derived line 332. -/
theorem test_ldsLFpul : gives 0x4156 [(.r 1, 0x4000), (.long 0x4000, 0xFF)]
    [(.r 1, 0x4004), (.fpul, 0xFF)] = true := by decide

/-- STS FPSCR,Rn; 95_test_vectors line 608. -/
theorem test_stsFpscr : gives 0x026A [(.r 2, 0)]
    [(.r 2, 0x40001)] = true := by decide

/-- STS FPUL,Rn; 97_test_vectors_derived line 329. -/
theorem test_stsFpul : gives 0x015A [(.fpul, 0xFFFFFFFE)]
    [(.r 1, 0xFFFFFFFE)] = true := by decide

/-- STS.L FPSCR,@-Rn; 95_test_vectors line 607. -/
theorem test_stsLFpscr : gives 0x4862 [(.r 8, 0xC700154)]
    [(.r 8, 0xC700150), (.long 0xC700150, 0x40001)] = true := by decide

/-- STS.L FPUL,@-Rn; 95_test_vectors line 606. -/
theorem test_stsLFpul : gives 0x4752 [(.r 7, 0xC700148), (.fpul, 0x3F800000)]
    [(.r 7, 0xC700144), (.long 0xC700144, 0x3F800000)] = true := by decide

/-! ### A witness for the hypotheses of each statement -/

/-- Where the memory map is empty every aligned address can be read, written and kept. -/
theorem readable {s : State} (h : s.params.memMap = []) {w : Nat} {a : Word} (ha : a.toNat % w = 0) :
    s.Readable w a :=
  ⟨ha, fun i _ => by simp [State.kindAt, h, regionKind]⟩

theorem writable {s : State} (h : s.params.memMap = []) {w : Nat} {a : Word} (ha : a.toNat % w = 0) :
    s.Writable w a :=
  ⟨readable h ha, fun i _ => by simp [State.kindAt, h, regionKind]⟩

theorem inRam {s : State} (h : s.params.memMap = []) {w : Nat} {a : Word} : s.InRam w a :=
  fun i _ => by simp [State.kindAt, h, regionKind]

theorem entryReady {s : State} (h : s.params.memMap = []) {v : BitVec 8}
    (hs : (s.reg spNum - 4).toNat % 4 = 0 ∧ (s.reg spNum - 8).toNat % 4 = 0) (hv : (s.vectorAddr v).toNat % 4 = 0) :
    s.EntryReady v :=
  ⟨writable h hs.1, writable h hs.2, readable h hv⟩

/-- A state with an aligned stack. -/
def stacked : State := state [(.pc, 0x1000), (.r 15, 0x2000)]

theorem stacked_ready : stacked.EntryReady 4 ∧ stacked.EntryReady 6 ∧ stacked.EntryReady 13 := by
  refine ⟨entryReady rfl ?_ ?_, entryReady rfl ?_ ?_, entryReady rfl ?_ ?_⟩ <;> decide

/-- A state whose next boundary presents a request. -/
def asked (irq : IrqRequest) : State := { stacked with inputs := [.request irq] }

/-- The state of `stacked` with a code where the next step fetches it. -/
def placed (w : Nat) : State := stacked.withFetchWord 16 w

theorem witness_DecodeIsUnambiguous : decode 0xE180 = .ok (.movImm 0x80 1) := by decide

theorem witness_DecodeFollowsTable :
    decode 0x8BFE = .ok (.bf 0xFE) ∧ (0x8B00 : Half) &&& (Instr.bf 0xFE).tableMask = (Instr.bf 0xFE).tableMatch := by
  decide

theorem witness_StepRunsDecoded :
    (placed 0x0009).NothingAccepted ∧ (placed 0x0009).proc = .run ∧ (placed 0x0009).Readable 2 (placed 0x0009).pc ∧
    (placed 0x0009).staleCode = false ∧
    decode ((placed 0x0009).beginStep.halfAt 0 (placed 0x0009).pc) = .ok .nop :=
  ⟨trivial, by decide, readable rfl (by decide), by decide, by decide⟩

/-- The hypotheses of `UnassignedCodesAreIllegal` that all its clauses share. -/
def UnassignedReady (s : State) : Prop :=
  s.NothingAccepted ∧ s.proc = .run ∧ s.Readable 2 s.pc ∧ s.staleCode = false ∧
  (∀ i, decode (s.beginStep.halfAt 0 s.pc) ≠ .ok i) ∧ s.mem.wf = true ∧ s.EntryReady s.params.vecIllegal ∧
  s.EntryReady s.params.vecSlotIllegal

theorem unassigned_of {s : State} (h : s.inputs = []) (hp : s.proc = .run) (hm : s.params = blank.params)
    (hs : s.staleCode = false) (hd : decode (s.beginStep.halfAt 0 s.pc) = .error (.unassigned 0x8300))
    (hw : s.mem.wf = true)
    (ha : s.pc.toNat % 2 = 0 ∧ (s.reg spNum - 4).toNat % 4 = 0 ∧ (s.reg spNum - 8).toNat % 4 = 0)
    (hv : (s.vectorAddr 4).toNat % 4 = 0 ∧ (s.vectorAddr 6).toNat % 4 = 0) : UnassignedReady s := by
  have m : s.params.memMap = [] := by rw [hm]; rfl
  have v4 : s.params.vecIllegal = 4 := by rw [hm]; rfl
  have v6 : s.params.vecSlotIllegal = 6 := by rw [hm]; rfl
  refine ⟨by simp [State.NothingAccepted, h], hp, readable m ha.1, hs, ?_, hw, ?_, ?_⟩
  · intro i h; rw [hd] at h; cases h
  · rw [v4]; exact entryReady m ha.2 hv.1
  · rw [v6]; exact entryReady m ha.2 hv.2

theorem witness_UnassignedCodesAreIllegal : UnassignedReady (placed 0x8300) ∧ (placed 0x8300).slot = .none := by
  refine ⟨unassigned_of ?_ ?_ ?_ ?_ ?_ ?_ ?_ ?_, ?_⟩ <;> first | rfl | decide

theorem witness_UnassignedCodesAreIllegal_pending :
    UnassignedReady { placed 0x8300 with slot := .pending 0x2000 } := by
  refine unassigned_of ?_ ?_ ?_ ?_ ?_ ?_ ?_ ?_ <;> first | rfl | decide

theorem witness_UnassignedCodesAreIllegal_untaken : UnassignedReady { placed 0x8300 with slot := .untaken } := by
  refine unassigned_of ?_ ?_ ?_ ?_ ?_ ?_ ?_ ?_ <;> first | rfl | decide

/-- A state in a delay slot, with the FPU stopped. -/
def inSlot (slot : Slot) : State := { stacked with slot := slot, fpuStopped := true }

theorem witness_SlotAndStoppedFpuIllegal :
    (inSlot .none).mem.wf = true ∧ (inSlot .none).slot = .none ∧ (Instr.fldi0 0).usesFpu = true ∧
    (inSlot .none).fpuStopped = true ∧ (inSlot .none).EntryReady (inSlot .none).params.vecIllegal := by
  refine ⟨by decide, rfl, rfl, rfl, entryReady rfl ?_ ?_⟩ <;> decide

theorem witness_SlotAndStoppedFpuIllegal_pending :
    (inSlot (.pending 0x2000)).mem.wf = true ∧ (inSlot (.pending 0x2000)).slot = .pending 0x2000 ∧
    Instr.rts.rewritesPc = true ∧ (Instr.fldi0 0).usesFpu = true ∧ (inSlot (.pending 0x2000)).fpuStopped = true ∧
    (inSlot (.pending 0x2000)).EntryReady (inSlot (.pending 0x2000)).params.vecSlotIllegal := by
  refine ⟨by decide, rfl, rfl, rfl, rfl, entryReady rfl ?_ ?_⟩ <;> decide

theorem witness_SlotAndStoppedFpuIllegal_untaken :
    (inSlot .untaken).mem.wf = true ∧ (inSlot .untaken).slot = .untaken ∧ Instr.rts.rewritesPc = true ∧
    (inSlot .untaken).EntryReady (inSlot .untaken).params.vecSlotIllegal := by
  refine ⟨by decide, rfl, rfl, entryReady rfl ?_ ?_⟩ <;> decide

/-- The levels just above and at I3-I0, which is 3. -/
theorem witness_InterruptAcceptance :
    let s := { asked (.maskable 4 64) with sr := 0x30 }
    let s' := { asked (.userBreak 3) with sr := 0x30 }
    s.inputs.head? = some (.request (.maskable 4 64)) ∧ s.slot = .none ∧ s.inhibit = false ∧ s.imask.toNat < 4 ∧
    s'.inputs.head? = some (.request (.userBreak 3)) ∧ 3 ≤ s'.imask.toNat := by decide

theorem witness_InterruptAcceptance_nmi :
    (asked .nmi).inputs.head? = some (.request .nmi) ∧ (asked .nmi).slot = .none ∧ (asked .nmi).inhibit = false ∧
    { asked .nmi with inhibit := true }.inhibit = true ∧ { asked .nmi with slot := .untaken }.slot ≠ .none := by
  decide

theorem witness_InterruptEntry :
    let s := { asked (.maskable 4 64) with sr := 0x30 }
    s.inputs.head? = some (.request (.maskable 4 64)) ∧ s.accepts (.maskable 4 64) = true ∧ s.mem.wf = true ∧
    s.EntryReady (irqVector (.maskable 4 64) s.params) := by
  refine ⟨by decide, by decide, by decide, entryReady rfl ?_ ?_⟩ <;> decide

theorem witness_InterruptEntry_nmi :
    (asked .nmi).inputs.head? = some (.request .nmi) ∧ (asked .nmi).accepts .nmi = true ∧ (asked .nmi).mem.wf = true ∧
    (asked .nmi).EntryReady (irqVector .nmi (asked .nmi).params) := by
  refine ⟨by decide, by decide, by decide, entryReady rfl ?_ ?_⟩ <;> decide

/-- Asleep with nothing presented, and with a request that the reset mask holds off. -/
theorem witness_SleepWaits :
    { stacked with proc := .sleep }.NothingAccepted ∧
    { asked (.maskable 15 64) with proc := .sleep, sr := 0xF0 }.NothingAccepted :=
  ⟨trivial, by show State.accepts _ _ = false; decide⟩

theorem witness_ResetInput (kind : ResetKind) :
    let s := { stacked with inputs := [.reset kind] }
    s.inputs.head? = some (.reset kind) ∧ s.Readable 4 ((resetPcEntry s.params kind).setWidth 32 * 4) ∧
    s.Readable 4 ((resetSpEntry s.params kind).setWidth 32 * 4) := by
  refine ⟨rfl, readable rfl ?_, readable rfl ?_⟩ <;> cases kind <;> decide

theorem stacked_inv : stacked.Inv := by
  constructor
  · decide
  · show _ = _; decide
  · show _ = _; decide
  · decide
  · decide
  · exact List.Pairwise.nil
  · decide

theorem witness_StepInvariant : stacked.Inv ∧ ∃ t, step stacked = .next t :=
  ⟨stacked_inv, by
    have h : (match step stacked with | .next _ => true | _ => false) = true := by decide
    revert h
    cases step stacked <;> simp⟩

theorem witness_EnvironmentIsConstant :
    (∃ t, step stacked = .next t) ∧ ∀ kind, stacked.inputs.head? ≠ some (.reset kind) :=
  ⟨witness_StepInvariant.2, fun kind => by
    have h : stacked.inputs.head? = none := rfl
    rw [h]; simp⟩

/-- What the statements on writers ask for: an instruction outside the list that answers a next state. -/
theorem witness_Writers :
    mayWriteT .nop = false ∧ loadsSr .nop = false ∧ dividesStep .nop = false ∧ writesFreg .nop ≠ some 0 ∧
    loadsFpscr (.fadd 0 1) = false ∧ (∃ t, exec .nop stacked = .next t) ∧ (∃ t, exec (.fldi0 0) stacked = .next t) :=
  ⟨rfl, rfl, rfl, by simp [writesFreg], rfl, ⟨_, rfl⟩, ⟨_, rfl⟩⟩

/-- Every special register has an instruction that may not write it and completes. -/
theorem witness_SpecialRegisterWriters (r : Special) :
    mayWriteSpecial .nop r = false ∧ ∃ t, exec .nop stacked = .next t :=
  ⟨by cases r <;> rfl, ⟨_, rfl⟩⟩

/-- A division step, where T, Q and M may change, and a set flag of FPSCR. -/
theorem witness_SrWriters_division :
    loadsSr .div0u = false ∧ dividesStep .div0u = true ∧ (∃ t, exec .div0u stacked = .next t) ∧
    (state [(.fpscr, 0x00040061)]).fv = true ∧ (state [(.fpscr, 0x00040061)]).fz = true ∧
    ∃ t, exec (.fabs 0) (state [(.fpscr, 0x00040061)]) = .next t :=
  ⟨rfl, rfl, ⟨_, rfl⟩, by decide, by decide, ⟨_, rfl⟩⟩

theorem witness_PendingBranches :
    ∃ t, exec .rts (state [(.pr, 0x2000)]) = .next t ∧ t.slot = .pending 0x2000 := ⟨_, rfl, by decide⟩

theorem witness_PendingBranches_untaken :
    let s := { state [(.t, 1)] with params := { blank.params with untakenSlotIsSlot := true } }
    ∃ t, exec (.bfS 4) s = .next t ∧ t.slot = .untaken := ⟨_, rfl, by decide⟩

theorem witness_InhibitAndSleepWriters :
    (∃ t, exec (.ldcGbr 0) stacked = .next t ∧ t.inhibit = true) ∧ (Instr.ldcGbr 0).inhibitsInterrupts = true ∧
    stacked.params.stackedPcAddressError = none ∧ ∃ t, exec .sleep stacked = .next t ∧ t.proc = .sleep :=
  ⟨⟨_, rfl, rfl⟩, rfl, rfl, ⟨_, rfl, rfl⟩⟩

/-- The last byte, word and longword of the address space. -/
theorem witness_StoreThenLoad :
    stacked.mem.wf = true ∧
    (∃ t, stacked.storeByte 0xFFFFFFFF 0xA5 = .ok t) ∧ stacked.InRam 1 0xFFFFFFFF ∧
    (∃ t, stacked.storeHalf 0xFFFFFFFE 0xA55A = .ok t) ∧ stacked.InRam 2 0xFFFFFFFE ∧
    (∃ t, stacked.storeLong 0xFFFFFFFC 0xA55A1234 = .ok t) ∧ stacked.InRam 4 0xFFFFFFFC :=
  ⟨by decide, ⟨_, State.storeByte_of_writable _ (writable rfl (by decide))⟩, inRam rfl,
    ⟨_, State.storeHalf_of_writable _ (writable rfl (by decide))⟩, inRam rfl,
    ⟨_, State.storeLong_of_writable _ (writable rfl (by decide))⟩, inRam rfl⟩

theorem witness_ByteOrder (order : Bool) :
    let s := { stacked with params := { blank.params with bigEndian := order } }
    s.params.bigEndian = order ∧ s.mem.wf = true ∧ s.InRam 2 0xFFFFFFFE ∧ s.InRam 4 0xFFFFFFFC ∧
    (∃ t, s.storeHalf 0xFFFFFFFE 0x0102 = .ok t) ∧ ∃ t, s.storeLong 0xFFFFFFFC 0x01020304 = .ok t :=
  ⟨rfl, by cases order <;> decide, inRam rfl, inRam rfl, ⟨_, State.storeHalf_of_writable _ (writable rfl (by decide))⟩,
    ⟨_, State.storeLong_of_writable _ (writable rfl (by decide))⟩⟩

/-- Each side of the equivalences of `AlignmentErrors`. -/
theorem witness_AlignmentErrors :
    (0x2001 : Word).getLsbD 0 = true ∧ (0x2000 : Word).getLsbD 0 = false ∧ (0x2002 : Word).extractLsb' 0 2 ≠ 0 ∧
    (0xFFFFFFFC : Word).extractLsb' 0 2 = 0 := by decide

theorem witness_AccessStops :
    let s := state [(.pc, 0x1001), (.r 1, 0x2002)]
    s.NothingAccepted ∧ s.proc = .run ∧ s.pc.getLsbD 0 = true ∧ s.params.stackedPcAddressError = none ∧
    firstAccess (.movLLoad 1 2) s = some (.read, 4, 0x2002) ∧ (0x2002 : Word).toNat % 4 ≠ 0 ∧
    (Instr.movLLoad 1 2).usesFpu = false ∧ (Instr.movLLoad 1 2).rewritesPc = false :=
  ⟨trivial, by decide⟩

/-- Code in a hole of the map, a load whose last byte lies in it, and a store whose last byte lies in faulting ROM. -/
def holed : State :=
  { state [(.pc, 0x3000), (.r 1, 0x2FFE), (.r 2, 0x4FFC)] with
    params := { blank.params with memMap := [⟨0x2FFF, 0x100, .absent⟩, ⟨0x4FFF, 1, .romFault⟩] } }

theorem witness_AccessStops_map :
    holed.NothingAccepted ∧ holed.proc = .run ∧ holed.pc.getLsbD 0 = false ∧
    holed.kindAt (holed.pc + BitVec.ofNat 32 1) = .absent ∧
    firstAccess (.movWLoad 1 3) holed = some (.read, 2, 0x2FFE) ∧ (0x2FFE : Word).toNat % 2 = 0 ∧
    holed.kindAt (0x2FFE + BitVec.ofNat 32 1) = .absent ∧
    firstAccess (.movLStore 3 2) holed = some (.write, 4, 0x4FFC) ∧ holed.Readable 4 0x4FFC ∧
    holed.kindAt (0x4FFC + BitVec.ofNat 32 3) = .romFault := by
  refine ⟨trivial, by decide, by decide, by decide, by decide, by decide, by decide, by decide, ⟨by decide, ?_⟩,
    by decide⟩
  decide

/-- A state at an odd address with R1 and R2 misaligned, whose address errors are taken. -/
def erring : State :=
  { state [(.pc, 0x1001), (.r 1, 0x2002), (.r 2, 0x3001), (.r 3, 0x4000), (.r 15, 0x2000)] with
    params := { blank.params with stackedPcAddressError := some (.self, .target) } }

/-- A fetch, a read and a write whose address error is taken; the first access of TRAPA misaligned. -/
theorem witness_AccessStops_taken :
    erring.NothingAccepted ∧ erring.proc = .run ∧ erring.pc.getLsbD 0 = true ∧
    erring.params.stackedPcAddressError = some (.self, .target) ∧ erring.mem.wf = true ∧
    erring.EntryReady erring.params.vecAddressError ∧
    firstAccess (.movLLoad 1 4) erring = some (.read, 4, 0x2002) ∧ (0x2002 : Word).toNat % 4 ≠ 0 ∧
    firstAccess (.movWStore 4 2) erring = some (.write, 2, 0x3001) ∧ (0x3001 : Word).toNat % 2 ≠ 0 ∧
    (Instr.movLLoad 1 4).rewritesPc = false ∧ (Instr.movWStore 4 2).rewritesPc = false ∧
    firstAccess (.trapa 0) (state [(.r 15, 0x2002)]) = some (.write, 4, 0x1FFE) ∧
    (Instr.trapa 0).rewritesPc = true ∧ (state [(.r 15, 0x2002)]).slot = .none ∧ (0x1FFE : Word).toNat % 4 ≠ 0 := by
  refine ⟨trivial, by decide, by decide, by decide, by decide, entryReady rfl ?_ ?_, ?_⟩ <;> decide

/-- The second read of MAC.L and MAC.W through R1 or R2 misaligned, with a stacked PC for address errors and without. -/
theorem witness_AccessStops_secondRead :
    erring.Readable 4 (erring.reg 3) ∧ (erring.reg 1).toNat % 4 ≠ 0 ∧ (erring.reg 2).toNat % 2 ≠ 0 ∧
    (erring.setReg 3 (erring.reg 3 + 4)).EntryReady erring.params.vecAddressError ∧
    (erring.setReg 3 (erring.reg 3 + 2)).EntryReady erring.params.vecAddressError ∧
    (state [(.r 1, 0x2002), (.r 3, 0x4000)]).params.stackedPcAddressError = none := by
  refine ⟨readable rfl (by decide), by decide, by decide, entryReady rfl ?_ ?_, entryReady rfl ?_ ?_, ?_⟩ <;> decide

/-- The second read of MAC.L absent, with m = n: R3 is at the last longword before the hole. -/
theorem witness_AccessStops_secondRead_absent :
    let s := { holed with params := { blank.params with memMap := [⟨0x3000, 4, .absent⟩] } }.setReg 3 0x2FFC
    s.Readable 4 (s.reg 3) ∧ (s.reg 3 + 4).toNat % 4 = 0 ∧ s.kindAt (s.reg 3 + 4 + BitVec.ofNat 32 0) = .absent := by
  refine ⟨⟨by decide, ?_⟩, by decide, by decide⟩
  decide

/-- R15 at 0x2000 and VBR 0, with a region of the map laid over the accesses of an entry or of RTE. -/
def mapped (base size : Nat) (kind : RegionKind) : State :=
  { state [(.pc, 0x1000), (.gbr, 0x3000), (.r 2, 0x3000), (.r 15, 0x2000)] with
    params := { blank.params with memMap := [⟨base, size, kind⟩] } }

/-- The byte of AND.B and of TAS.B in faulting ROM, and the second longword of RTE absent. -/
theorem witness_AccessStops_later :
    (mapped 0x3000 1 .romFault).gbr + (mapped 0x3000 1 .romFault).reg 0 = 0x3000 ∧
    (mapped 0x3000 1 .romFault).reg 2 = 0x3000 ∧ (mapped 0x3000 1 .romFault).kindAt 0x3000 = .romFault ∧
    (mapped 0x2007 1 .absent).slot = .none ∧
    (mapped 0x2007 1 .absent).Readable 4 ((mapped 0x2007 1 .absent).reg spNum) ∧
    (mapped 0x2007 1 .absent).kindAt ((mapped 0x2007 1 .absent).reg spNum + 4 + BitVec.ofNat 32 3) = .absent := by
  refine ⟨by decide, by decide, by decide, by decide, ⟨by decide, ?_⟩, by decide⟩
  decide

/-- The accesses of an entry: each push absent or in faulting ROM at its last byte, and the vector absent. -/
theorem witness_AccessStops_entry :
    (mapped 0x1FFF 1 .absent).kindAt (0x2000 - 4 + BitVec.ofNat 32 3) = .absent ∧
    (mapped 0x1FFF 1 .romFault).Readable 4 (0x2000 - 4) ∧
    (mapped 0x1FFF 1 .romFault).kindAt (0x2000 - 4 + BitVec.ofNat 32 3) = .romFault ∧
    (mapped 0x1FFB 1 .absent).Writable 4 (0x2000 - 4) ∧
    (mapped 0x1FFB 1 .absent).kindAt (0x2000 - 8 + BitVec.ofNat 32 3) = .absent ∧
    (mapped 0x1FFB 1 .romFault).Writable 4 (0x2000 - 4) ∧ (mapped 0x1FFB 1 .romFault).Readable 4 (0x2000 - 8) ∧
    (mapped 0x1FFB 1 .romFault).kindAt (0x2000 - 8 + BitVec.ofNat 32 3) = .romFault ∧
    (mapped 0x83 1 .absent).Writable 4 (0x2000 - 4) ∧ (mapped 0x83 1 .absent).Writable 4 (0x2000 - 8) ∧
    (mapped 0x83 1 .absent).kindAt (0 + (0x20 : BitVec 8).setWidth 32 * 4 + BitVec.ofNat 32 3) = .absent ∧
    (mapped 0x83 1 .absent).reg spNum = 0x2000 ∧ (mapped 0x83 1 .absent).vbr = 0 ∧
    (mapped 0x83 1 .absent).slot = .none := by
  unfold State.Writable State.Readable
  decide

/-- VBR misaligned, with both pushes of an entry accessible. -/
theorem witness_AccessStops_vbr :
    let s := { stacked with vbr := 0x8002 }
    s.Writable 4 (s.reg spNum - 4) ∧ s.Writable 4 (s.reg spNum - 8) ∧ s.vbr.toNat % 4 ≠ 0 :=
  ⟨writable rfl (by decide), writable rfl (by decide), by decide⟩

/-- Code that the run has stored. -/
theorem witness_AccessStops_stored :
    let s := state [(.pc, 0x1000), (.half 0x1000, 9)]
    s.NothingAccepted ∧ s.proc = .run ∧ s.Readable 2 s.pc ∧ s.staleCode = true :=
  ⟨trivial, by decide, readable rfl (by decide), by decide⟩

/-- The three cases of the PC operand, each even, with the table readable. -/
theorem witness_PcRelativeForms :
    let s' := { stacked with slot := .pending 0x2002 }
    let s'' := { stacked with slot := .untaken }
    (stacked.slot = .none ∧ (0x1004 : Word) = stacked.pc + 4) ∧
    (s'.slot = .pending 0x2002 ∧ (0x2004 : Word) = 0x2002 + 2) ∧
    (s''.slot = .untaken ∧ (0x1004 : Word) = s''.pc + 4) ∧ (0x1004 : Word).getLsbD 0 = false ∧
    (∀ j, j < 2 → stacked.kindAt (stacked.eaPcWord 255 + BitVec.ofNat 32 j) ≠ .absent) ∧
    (∀ j, j < 4 → stacked.kindAt (stacked.eaPcLong 255 + BitVec.ofNat 32 j) ≠ .absent) := by
  refine ⟨by decide, by decide, by decide, by decide, fun j _ => ?_, fun j _ => ?_⟩ <;> exact fun h => by cases h

/-- Accesses that can be made, at the highest address of each width, and misaligned ones: the loads, the stores, the
forms with address update and the system registers. -/
theorem witness_Accesses :
    let s := state [(.r 1, 0xFFFFFFFF), (.r 2, 0xFFFFFFFE), (.r 3, 0xFFFFFFFC)]
    s.mem.wf = true ∧ s.fpuStopped = false ∧
    s.Readable 1 (s.reg 1) ∧ s.Readable 2 (s.reg 2) ∧ s.Readable 4 (s.reg 3) ∧
    s.Writable 1 (s.reg 1) ∧ s.Writable 2 (s.reg 2) ∧ s.Writable 4 (s.reg 3) ∧
    s.InRam 1 (s.reg 1) ∧ s.InRam 2 (s.reg 2) ∧ s.InRam 4 (s.reg 3) ∧
    s.Writable 1 (s.reg 1 - 1) ∧ s.Writable 2 (s.reg 2 - 2) ∧ s.Writable 4 (s.eaPreDec 3 4) ∧
    (s.reg 1).toNat % 2 ≠ 0 ∧ (s.reg 2).toNat % 4 ≠ 0 :=
  ⟨by decide, by decide, readable rfl (by decide), readable rfl (by decide), readable rfl (by decide),
    writable rfl (by decide), writable rfl (by decide), writable rfl (by decide), inRam rfl, inRam rfl, inRam rfl,
    writable rfl (by decide), writable rfl (by decide), writable rfl (by decide), by decide, by decide⟩

/-- Both cases of DIV1: Q equal to M, and not. -/
theorem witness_DivisionSteps :
    (state [(.sr, 0)]).q = (state [(.sr, 0)]).m ∧ (state [(.sr, 0x100)]).q ≠ (state [(.sr, 0x100)]).m := by decide

/-- The remainder at both ends of its range: -5 and 4 for the divisor 5. -/
theorem witness_UnsignedDivisionStep :
    let s := state [(.sr, 0x100), (.r 0, 5), (.r 1, 0xFFFFFFFB)]
    let s' := state [(.sr, 0), (.r 0, 5), (.r 1, 4)]
    (s.m = false ∧ (5 : Int) = (s.reg 0).toNat ∧ (-5 : Int) = (s.reg 1).toNat - 2 ^ 32 * s.q.toNat ∧
      ∃ t, exec (.div1 0 1) s = .next t) ∧
    (s'.m = false ∧ (5 : Int) = (s'.reg 0).toNat ∧ (4 : Int) = (s'.reg 1).toNat - 2 ^ 32 * s'.q.toNat ∧
      ∃ t, exec (.div1 0 1) s' = .next t) :=
  ⟨⟨by decide, by decide, by decide, ⟨_, rfl⟩⟩, ⟨by decide, by decide, by decide, ⟨_, rfl⟩⟩⟩

/-- A multiply-accumulate of the longwords or words 1 at R1 and `b` at R0. -/
def macState (sr mach macl b : Nat) : State :=
  state [(.sr, sr), (.mach, mach), (.macl, macl), (.r 1, 0x2000), (.r 0, 0x3000), (.long 0x2000, 1), (.long 0x3000, b)]

/-- The sum that MAC.L holds within 48 bits. -/
def macLSum (s : State) : Int :=
  ((s.mach ++ s.macl).extractLsb' 0 48).toInt + (s.longAt 1 (s.reg 1)).toInt * (s.longAt 2 (s.reg 0)).toInt

/-- Sums at and just outside both ends of 48 bits, and S = 0. -/
theorem witness_MultiplyAccumulateLong :
    macLSum (macState 2 0xFFFF8000 0 0xFFFFFFFF) = -2 ^ 47 - 1 ∧ macLSum (macState 2 0xFFFF8000 0 0) = -2 ^ 47 ∧
    macLSum (macState 2 0x00007FFF 0xFFFFFFFF 0) = 2 ^ 47 - 1 ∧
    macLSum (macState 2 0x00007FFF 0xFFFFFFFF 1) = 2 ^ 47 ∧
    (macState 2 0 0 1).sBit = true ∧ (macState 0 0 0 1).sBit = false := by decide

theorem witness_MultiplyAccumulateLong_readable :
    let s := macState 2 0 0 1
    s.Readable 4 (s.reg 1) ∧ s.Readable 4 (s.reg 0) ∧ s.Readable 4 (s.reg 1 + 4) :=
  ⟨readable rfl (by decide), readable rfl (by decide), readable rfl (by decide)⟩

/-- The sum that MAC.W holds within 32 bits, with the words 1 at R1 + 2 and `b` at R0 + 2. -/
def macWSum (s : State) : Int :=
  s.macl.toInt + (s.halfAt 1 (s.reg 1 + 2)).toInt * (s.halfAt 2 (s.reg 0 + 2)).toInt

theorem witness_MultiplyAccumulateWord :
    macWSum (macState 2 0 0x80000000 0xFFFF) = -2 ^ 31 - 1 ∧ macWSum (macState 2 0 0x80000000 0) = -2 ^ 31 ∧
    macWSum (macState 2 0 0x7FFFFFFF 0) = 2 ^ 31 - 1 ∧ macWSum (macState 2 0 0x7FFFFFFF 1) = 2 ^ 31 := by decide

theorem witness_MultiplyAccumulateWord_readable :
    let s := macState 2 0 0 1
    s.Readable 2 (s.reg 1) ∧ s.Readable 2 (s.reg 0) ∧ s.Readable 2 (s.reg 1 + 2) :=
  ⟨readable rfl (by decide), readable rfl (by decide), readable rfl (by decide)⟩

theorem witness_LogicOnMemory :
    let s := state [(.gbr, 0xFFFFFFF0), (.r 0, 0xF), (.r 1, 0)]
    s.mem.wf = true ∧ (0xFFFFFFFF : Word) = s.gbr + s.reg 0 ∧ s.Writable 1 0xFFFFFFFF ∧ s.InRam 1 0xFFFFFFFF ∧
    s.Writable 1 (s.reg 1) ∧ s.InRam 1 (s.reg 1) :=
  ⟨by decide, by decide, writable rfl (by decide), inRam rfl, writable rfl (by decide), inRam rfl⟩

theorem witness_BranchInstructions :
    stacked.slot = .none ∧ (inSlot (.pending 0x2000)).slot ≠ .none ∧ (inSlot .untaken).slot ≠ .none := by decide

/-- `SR_MASK` at both ends of what the spec allows. -/
theorem witness_ControlRegisterMoves :
    (0x0FFF0FFF : Word) &&& 0xF000F000 = 0 ∧ (0x0FFF0FFF : Word) &&& 0x000003F3 = 0x000003F3 ∧
    (0x000003F3 : Word) &&& 0xF000F000 = 0 ∧ (0x000003F3 : Word) &&& 0x000003F3 = 0x000003F3 := by decide

theorem witness_TrapEntry : stacked.mem.wf = true ∧ stacked.slot = .none ∧ stacked.EntryReady 255 := by
  refine ⟨by decide, by decide, entryReady rfl ?_ ?_⟩ <;> decide

theorem witness_ReturnFromException :
    stacked.Readable 4 (stacked.reg spNum) ∧ stacked.Readable 4 (stacked.reg spNum + 4) ∧ stacked.slot = .none ∧
    (state [(.r 15, 0x2002)]).slot = .none ∧ ((state [(.r 15, 0x2002)]).reg spNum).toNat % 4 ≠ 0 :=
  ⟨readable rfl (by decide), readable rfl (by decide), by decide, by decide, by decide⟩

theorem witness_EntryThenReturnRestores :
    stacked.Inv ∧ stacked.EntryReady 4 ∧ stacked.InRam 4 (stacked.reg spNum - 4) ∧
    stacked.InRam 4 (stacked.reg spNum - 8) ∧ ∃ t, enterException 4 0x1000 none stacked = .next t :=
  ⟨stacked_inv, stacked_ready.1, inRam rfl, inRam rfl, ⟨_, enterException_of_ready stacked_ready.1⟩⟩

/-- A state with FR0 and FR1, the FPU running, and the enable bits of FPSCR as given. -/
def fpState (a b fpscr : Nat) : State := state [(.r 15, 0x2000), (.fr 0, a), (.fr 1, b), (.fpscr, fpscr)]

/-- A value, an invalid operation with EV clear and a division by zero with EZ clear. -/
theorem witness_FloatArithmetic :
    let s := fpState 0 0x3F800000 0x00040001
    let s' := fpState 0 0 0x00040401
    let s'' := fpState 0 0x3F800000 0x00040801
    s.fpuStopped = false ∧ FpQuiet (fpAdd (s.freg 1) (s.freg 0)) s ∧
    fpDiv (s'.freg 1) (s'.freg 0) = .invalid ∧ s'.ev = false ∧
    fpDiv (s''.freg 1) (s''.freg 0) = .divByZero false ∧ s''.ez = false := by
  refine ⟨by decide, ?_, by decide, by decide, by decide, by decide⟩
  have h : fpAdd ((fpState 0 0x3F800000 0x00040001).freg 1) ((fpState 0 0x3F800000 0x00040001).freg 0) =
      .value 0x3F800000 := by decide
  show FpQuiet (fpAdd ((fpState 0 0x3F800000 0x00040001).freg 1) ((fpState 0 0x3F800000 0x00040001).freg 0)) _
  rw [h]; trivial

/-- A pattern of each class, the two kinds of NaN apart, and a normalized number at each end of its range. -/
theorem class_patterns :
    fpIsSNan 0x7FC00000 = true ∧ fpIsQNan 0x7FBFFFFF = true ∧ fpIsSNan 0x7FBFFFFF = false ∧
    fpIsInf 0x7F800000 = true ∧ fpIsInf 0xFF800000 = true ∧ fpIsZero 0x80000000 = true ∧
    fpIsZero 0x007FFFFF = true ∧ FpNorm 0x00800000 ∧ FpNorm 0xFF7FFFFF ∧ fpIsNan 0x00800000 = false ∧
    fpIsInf 0x00800000 = false := by
  refine ⟨by decide, by decide, by decide, by decide, by decide, by decide, by decide, ?_, ?_, by decide, by decide⟩ <;>
    (unfold FpNorm; decide)

/-- FMAC's hypotheses on classes, beside `class_patterns`: a quiet NaN with no infinity times zero, and the two signs of
an infinity added to an infinite product. -/
theorem witness_FloatArithmetic_classes :
    (¬(fpIsInf 0x7FBFFFFF = true ∧ fpIsZero 0x3F800000 = true ∨
      fpIsZero 0x7FBFFFFF = true ∧ fpIsInf 0x3F800000 = true)) ∧
    fpIsSNan 0x3F800000 = false ∧ fpIsNan 0xFF800000 = false ∧
    fpSign 0xFF800000 ≠ (fpSign 0x7F800000 ^^ fpSign 0x3F800000) ∧
    fpSign 0x7F800000 = (fpSign 0x7F800000 ^^ fpSign 0x3F800000) := by decide

/-- The enabled invalid operations of FCMP/EQ, FCMP/GT and FTRC: a signaling NaN, a quiet NaN, and 2^31. -/
theorem witness_FpuExceptions_compare :
    let s := fpState 0x7FC00000 0x7FBFFFFF 0x00040801
    let s' := fpState 0x4F000000 0xCF000001 0x00040801
    FpTraps .invalid s ∧ fpIsSNan (s.freg 0) = true ∧ fpIsNan (s.freg 1) = true ∧ FpTraps .invalid s' ∧
    2 ^ 31 * 2 ^ 149 ≤ fpVal (s'.freg 0) ∧ fpVal (s'.freg 1) < -2 ^ 31 * 2 ^ 149 ∧ s.EntryReady 13 ∧
    s'.EntryReady 13 := by
  refine ⟨(by decide : (fpState 0x7FC00000 0x7FBFFFFF 0x00040801).ev = true), by decide, by decide,
    (by decide : (fpState 0x4F000000 0xCF000001 0x00040801).ev = true), by decide, by decide, entryReady rfl ?_ ?_,
    entryReady rfl ?_ ?_⟩ <;> decide

/-- An enabled invalid operation and an enabled division by zero. -/
theorem witness_FpuExceptions :
    let s := fpState 0 0 0x00040801
    let s' := fpState 0 0x3F800000 0x00040401
    s.fpuStopped = false ∧ s.mem.wf = true ∧ s.EntryReady 13 ∧
    fpDiv (s.freg 1) (s.freg 0) = .invalid ∧ s.ev = true ∧
    fpDiv (s'.freg 1) (s'.freg 0) = .divByZero false ∧ s'.ez = true ∧ s'.EntryReady 13 := by
  refine ⟨by decide, by decide, entryReady rfl ?_ ?_, by decide, by decide, by decide, by decide,
    entryReady rfl ?_ ?_⟩ <;> decide

/-- No NaN, a quiet NaN and a signaling NaN; EV clear and set. -/
theorem witness_FloatCompare :
    fpIsSNan 0x7F800000 = false ∧ fpIsNan 0x7F800000 = false ∧ fpIsSNan 0x7FBFFFFF = false ∧
    fpIsNan 0x7FBFFFFF = true ∧ fpIsSNan 0x7FC00000 = true ∧ (fpState 0 0 0x00040001).ev = false ∧
    (fpState 0 0 0x00040801).ev = true := by decide

/-- The greatest and the least value that fits a longword, the next beyond each, and a NaN. -/
theorem witness_FloatToInteger :
    (fpVal 0x4EFFFFFF < 2 ^ 31 * 2 ^ 149 ∧ -2 ^ 31 * 2 ^ 149 ≤ fpVal 0x4EFFFFFF) ∧
    2 ^ 31 * 2 ^ 149 ≤ fpVal 0x4F000000 ∧ -2 ^ 31 * 2 ^ 149 ≤ fpVal 0xCF000000 ∧
    fpVal 0xCF000001 < -2 ^ 31 * 2 ^ 149 ∧ fpIsNan 0x4EFFFFFF = false ∧ fpIsNan 0x4F000000 = false ∧
    fpIsNan 0xCF000000 = false ∧ fpIsNan 0xCF000001 = false ∧ fpIsNan 0x7FFFFFFF = true := by decide

theorem witness_IntegerToFloat :
    (0x01000000 : Word).toInt.natAbs ≤ 2 ^ 24 ∧ (0xFF000000 : Word).toInt.natAbs ≤ 2 ^ 24 ∧
    1 ≤ fpExponent 0x4B800000 ∧ fpExponent 0x4B800000 ≤ 254 ∧
    fpMag 0x4B800000 ≤ (0x01000001 : Word).toInt.natAbs * 2 ^ 149 := by decide

/-- The exact magnitude at the smallest normalized one and just below it. -/
theorem witness_FloatTruncation :
    (0 : Nat) < 3 ∧ 3 * 2 ^ 23 - 1 < 2 ^ 23 * 3 ∧ 2 ^ 23 * 3 ≤ 3 * 2 ^ 23 ∧ 1 ≤ fpExponent 0x00800000 ∧
    fpMag 0x00800000 * 3 ≤ 3 * 2 ^ 23 := by decide

/-- The signs of the clauses on two infinities; `class_patterns` has operands of each class. -/
theorem witness_FloatSpecialCases :
    fpSign 0x7F800000 ≠ fpSign 0xFF800000 ∧ fpIsInf 0x7F800000 = true ∧ fpIsInf 0xFF800000 = true ∧
    false = (fpSign 0x7F800000 ^^ fpSign 0x7F800000) ∧ true = (fpSign 0x7F800000 ^^ fpSign 0xFF800000) := by decide

end Sys2Proof.Tests
end

section
/-! PROOFS. What an executed instruction can do, said once: a chain of licensed writes, and one of four ways
to go on. -/

namespace Sys2Proof.Machine

/-! ### Special registers -/

/-- Load a special register, as the LDC, LDS, branch, multiply and conversion instructions do. -/
def State.writeSpecial (s : State) (r : Special) (v : Word) : State :=
  match r with
  | .gbr => s.writeGbr v
  | .vbr => s.writeVbr v
  | .mach => s.writeMach v
  | .macl => s.writeMacl v
  | .pr => s.writePr v
  | .fpul => s.writeFpul v
  | .fpscr => s.writeFpscr v

@[simp] theorem State.writeSpecial_sr (s : State) (r : Special) (v : Word) : (s.writeSpecial r v).sr = s.sr := by
  cases r <;> rfl

@[simp] theorem State.writeSpecial_t (s : State) (r : Special) (v : Word) : (s.writeSpecial r v).t = s.t := by
  cases r <;> rfl

@[simp] theorem State.writeSpecial_q (s : State) (r : Special) (v : Word) : (s.writeSpecial r v).q = s.q := by
  cases r <;> rfl

@[simp] theorem State.writeSpecial_m (s : State) (r : Special) (v : Word) : (s.writeSpecial r v).m = s.m := by
  cases r <;> rfl

@[simp] theorem State.writeSpecial_freg (s : State) (r : Special) (v : Word) (n : FRegNum) :
    (s.writeSpecial r v).freg n = s.freg n := by
  cases r <;> rfl

@[simp] theorem State.writeSpecial_mem (s : State) (r : Special) (v : Word) :
    (s.writeSpecial r v).mem = s.mem := by
  cases r <;> rfl

@[simp] theorem State.writeSpecial_stored (s : State) (r : Special) (v : Word) :
    (s.writeSpecial r v).stored = s.stored := by
  cases r <;> rfl

@[simp] theorem State.writeSpecial_params (s : State) (r : Special) (v : Word) :
    (s.writeSpecial r v).params = s.params := by
  cases r <;> rfl

@[simp] theorem State.writeSpecial_proc (s : State) (r : Special) (v : Word) :
    (s.writeSpecial r v).proc = s.proc := by
  cases r <;> rfl

theorem State.special_writeSpecial_of_ne (s : State) {r q : Special} (v : Word) (h : q ≠ r) :
    (s.writeSpecial r v).special q = s.special q := by
  cases r <;> cases q <;> first | rfl | exact absurd rfl h

/-- A write of a special register that is not FPSCR leaves FPSCR. -/
theorem State.writeSpecial_fpscr (s : State) {r : Special} (v : Word) (h : r ≠ .fpscr) :
    (s.writeSpecial r v).fpscr = s.fpscr :=
  s.special_writeSpecial_of_ne v h.symm

/-! ### The writes of an instruction -/

/-- `w` comes from `s` by writes that the tables of Safety.lean allow the instruction: any general register and any
byte of memory, each other register only as it is listed.  PC, the pending branch and the inhibit are set apart, by
`Continues`. -/
inductive Effect (i : Instr) (s : State) : State → Prop
  | refl : Effect i s s
  | reg {w : State} {n : RegNum} {v : Word} (h : Effect i s w) : Effect i s (w.setReg n v)
  | byte {w : State} {a : Word} {v : Byte} (h : Effect i s w) : Effect i s (w.putByte a v)
  | freg {w : State} {n : FRegNum} {v : Word} (h : Effect i s w) (hn : writesFreg i = some n) :
      Effect i s (w.setFreg n v)
  | t {w : State} {b : Bool} (h : Effect i s w) (ht : mayWriteT i = true) : Effect i s (w.setT b)
  | q {w : State} {b : Bool} (h : Effect i s w) (hd : dividesStep i = true) : Effect i s (w.setQ b)
  | m {w : State} {b : Bool} (h : Effect i s w) (hd : dividesStep i = true) : Effect i s (w.setM b)
  | sr {w : State} {v : Word} (h : Effect i s w) (hl : loadsSr i = true) : Effect i s (w.writeSr v)
  | special {w : State} {v : Word} (r : Special) (h : Effect i s w) (hr : mayWriteSpecial i r = true)
      (hf : r = .fpscr → loadsFpscr i = true) : Effect i s (w.writeSpecial r v)
  | clearCause {w : State} (h : Effect i s w) (hf : mayWriteSpecial i .fpscr = true) : Effect i s w.clearCause
  | invalid {w : State} (h : Effect i s w) (hf : mayWriteSpecial i .fpscr = true) : Effect i s w.setInvalid
  | divZero {w : State} (h : Effect i s w) (hf : mayWriteSpecial i .fpscr = true) : Effect i s w.setDivZero
  | proc {w : State} {p : ProcState} (h : Effect i s w) (hp : p = .sleep → i = .sleep) :
      Effect i s { w with proc := p }

namespace Effect

variable {i : Instr} {s w : State}

theorem half (h : Effect i s w) {a : Word} {v : Half} : Effect i s (w.putHalf a v) := h.byte.byte

theorem long (h : Effect i s w) {a v : Word} : Effect i s (w.putLong a v) := h.byte.byte.byte.byte

theorem scrambleLong (h : Effect i s w) {a : Word} : Effect i s (w.scrambleLong a) := h.byte.byte.byte.byte

theorem scrambleAround (h : Effect i s w) {a : Word} {width : Nat} : Effect i s (w.scrambleAround a width) :=
  h.scrambleLong.scrambleLong

theorem mac (h : Effect i s w) {v : BitVec 64} (hh : mayWriteSpecial i .mach = true)
    (hl : mayWriteSpecial i .macl = true) : Effect i s (w.setMac v) :=
  (h.special (v := v.extractLsb' 32 32) .mach hh nofun).special (v := v.extractLsb' 0 32) .macl hl nofun

theorem afterFirstMacRead (h : Effect i s w) {n : RegNum} {size : Word} :
    Effect i s (w.afterFirstMacRead n size) := by
  unfold State.afterFirstMacRead
  split
  · exact h.reg
  · exact h

end Effect

/-! ### How execution goes on -/

/-- What executing `i` in `s` can make of PC, the pending branch and the inhibit: the instruction ends with no branch
pending and with the inhibit of its class; a delayed branch outside a slot leaves its slot to be executed; or an
exception is entered, which in an interrupt-disabled instruction only an address error can be. -/
inductive Continues (i : Instr) (s : State) : Word → Slot → Bool → Prop
  | ends {inhibit : Bool} (pc : Word) (hi : i.inhibitsInterrupts = inhibit) : Continues i s pc .none inhibit
  | branches (target : Word) (hd : delayed i = true) (hs : s.slot = .none) :
      Continues i s (s.pc + 2) (.pending target) false
  | untaken (hp : s.params.untakenSlotIsSlot = true) (hd : delayed i = true) (hs : s.slot = .none) :
      Continues i s (s.pc + 2) .untaken false
  | raises (pc : Word) (hi : i.inhibitsInterrupts = true → s.params.stackedPcAddressError ≠ none) :
      Continues i s pc .none false

/-- What every next state of an executed instruction is. -/
inductive Executed (i : Instr) (s : State) : State → Prop
  | intro {w : State} {pc : Word} {slot : Slot} {inhibit : Bool} (data : Effect i s w)
      (control : Continues i s pc slot inhibit) :
      Executed i s { w with pc := pc, slot := slot, inhibit := inhibit }

theorem Effect.params {i : Instr} {s w : State} (h : Effect i s w) : w.params = s.params := by
  induction h with
  | refl => rfl
  | proc _ _ ih => exact ih
  | _ => rename_i ih; simpa using ih

/-- An exception entry of an instruction as writes of memory and R15 and a waking, with PC, the pending branch and the
inhibit set apart. -/
theorem State.entered_none_eq (s : State) (v : BitVec 8) (stackedPc : Word) :
    s.entered v stackedPc none =
      { ({ (s.pushed stackedPc).setReg spNum (s.reg spNum - 8) with proc := .run } : State) with
        pc := (s.pushed stackedPc).longAt 3 (s.vectorAddr v), slot := .none, inhibit := false } := by
  simp only [State.entered]

theorem Effect.entered {i : Instr} {s w : State} (h : Effect i s w) (v : BitVec 8) (stackedPc : Word)
    (hi : i.inhibitsInterrupts = true → s.params.stackedPcAddressError ≠ none) :
    Executed i s (w.entered v stackedPc none) := by
  have hp : Effect i s (w.pushed stackedPc) := h.long.long
  rw [State.entered_none_eq]
  exact .intro (.proc hp.reg nofun) (.raises _ hi)

/-! ### The shared operations execute -/

section Shapes

variable {i : Instr} {s w : State}

theorem executes_finish (h : Effect i s w) (hi : i.inhibitsInterrupts = false) :
    Leads (Executed i s) (finish w) :=
  leads_finish (show Executed i s { w with pc := w.nextPc, slot := .none, inhibit := false } from
    .intro h (.ends _ hi))

theorem executes_finishInhibit (h : Effect i s w) (hi : i.inhibitsInterrupts = true) :
    Leads (Executed i s) (finishInhibit w) :=
  leads_finishInhibit (show Executed i s { w with pc := w.nextPc, slot := .none, inhibit := true } from
    .intro h (.ends _ hi))

theorem executes_raiseIllegal (hi : i.inhibitsInterrupts = false) : Leads (Executed i s) (raiseIllegal s) :=
  leads_raiseIllegal fun _ _ => Effect.refl.entered _ _ (by simp [hi])

theorem executes_raiseFpu (h : Effect i s w) (hi : i.inhibitsInterrupts = false) :
    Leads (Executed i s) (raiseFpu w) :=
  leads_raiseFpu fun _ _ => h.entered _ _ (by simp [hi])

theorem executes_raiseMem (h : Effect i s w) (e : MemErr) : Leads (Executed i s) (raiseMem e w) :=
  leads_raiseMem (fun hp _ _ => h.entered _ _ fun _ => h.params ▸ hp)
    (fun hp _ _ _ _ => h.scrambleAround.entered _ _ fun _ => h.params ▸ hp)

theorem executes_load {α : Type} {loaded : Except MemErr α} {k : α → Result} (h : Effect i s w)
    (hk : ∀ v, Leads (Executed i s) (k v)) : Leads (Executed i s) (withLoad loaded w k) :=
  leads_withLoad (fun v _ => hk v) (executes_raiseMem h)

theorem executes_storeByte {a : Word} {v : Byte} {k : State → Result}
    (hk : Leads (Executed i s) (k (s.putByte a v))) : Leads (Executed i s) (withStore (s.storeByte a v) s k) :=
  leads_storeByte hk (executes_raiseMem .refl)

theorem executes_storeHalf {a : Word} {v : Half} {k : State → Result}
    (hk : Leads (Executed i s) (k (s.putHalf a v))) : Leads (Executed i s) (withStore (s.storeHalf a v) s k) :=
  leads_storeHalf hk (executes_raiseMem .refl)

theorem executes_storeLong {a v : Word} {k : State → Result}
    (hk : Leads (Executed i s) (k (s.putLong a v))) : Leads (Executed i s) (withStore (s.storeLong a v) s k) :=
  leads_storeLong hk (executes_raiseMem .refl)

theorem executes_guardSlot {r : Result} (hi : i.inhibitsInterrupts = false)
    (hr : s.slot = .none → Leads (Executed i s) r) : Leads (Executed i s) (guardSlot s r) :=
  leads_guardSlot hr (executes_raiseIllegal hi)

theorem executes_guardFpu {r : Result} (hi : i.inhibitsInterrupts = false) (hr : Leads (Executed i s) r) :
    Leads (Executed i s) (guardFpu s r) :=
  leads_guardFpu (fun _ => hr) (executes_raiseIllegal hi)

theorem executes_jumpTo {target : Word} (hi : i.inhibitsInterrupts = false) :
    Leads (Executed i s) (jumpTo target s) := leads_jumpTo (.intro .refl (.ends _ hi))

theorem executes_untakenBranch (hd : delayed i = true) (hs : s.slot = .none) (hi : i.inhibitsInterrupts = false) :
    Leads (Executed i s) (untakenBranch s) := by
  refine leads_untakenBranch (.intro .refl ?_)
  split
  · rename_i hp; exact .untaken hp hd hs
  · exact .ends _ hi

/-- A taken delayed branch, which may have linked PR. -/
theorem executes_delayedBranch {target : Word} (h : Effect i s w) (hpc : w.pc = s.pc) (hd : delayed i = true)
    (hs : s.slot = .none) : Leads (Executed i s) (delayedBranch target w) :=
  leads_delayedBranch (hpc ▸ .intro h (.branches target hd hs))

theorem executes_invalidOutcome {disabled : State → State} (h : Effect i s w)
    (hd : Effect i s (disabled w.setInvalid)) (hf : mayWriteSpecial i .fpscr = true)
    (hi : i.inhibitsInterrupts = false) : Leads (Executed i s) (invalidOutcome w disabled) := by
  simp only [invalidOutcome]
  split
  · exact executes_raiseFpu (h.invalid hf) hi
  · exact executes_finish hd hi

theorem executes_arithOutcome {n : FRegNum} {r : FpResult} (hn : writesFreg i = some n)
    (hf : mayWriteSpecial i .fpscr = true) (hi : i.inhibitsInterrupts = false) :
    Leads (Executed i s) (arithOutcome n r s) := by
  have hc : Effect i s s.clearCause := .clearCause .refl hf
  cases r with
  | value v => exact executes_finish (hc.freg hn) hi
  | invalid =>
    simp only [arithOutcome]
    exact executes_invalidOutcome hc (.freg (hc.invalid hf) hn) hf hi
  | divByZero sign =>
    simp only [arithOutcome, divZeroOutcome]
    split
    · exact executes_raiseFpu (hc.divZero hf) hi
    · exact executes_finish ((hc.divZero hf).freg hn) hi

theorem executes_compareOutcome {r : Option Bool} (ht : mayWriteT i = true)
    (hf : mayWriteSpecial i .fpscr = true) (hi : i.inhibitsInterrupts = false) :
    Leads (Executed i s) (compareOutcome r s) := by
  have hc : Effect i s s.clearCause := .clearCause .refl hf
  cases r with
  | some b => exact executes_finish (hc.t ht) hi
  | none =>
    simp only [compareOutcome]
    exact executes_invalidOutcome hc (.t (hc.invalid hf) ht) hf hi

theorem executes_returnFromException (hl : loadsSr i = true) (hd : delayed i = true) (hs : s.slot = .none) :
    Leads (Executed i s) (returnFromException s) :=
  leads_returnFromException fun newPc _ => .intro (.sr (.reg .refl) hl) (.branches newPc hd hs)

end Shapes

/-! ### Every instruction executes -/

theorem execFtrc_executes (m : FRegNum) (s : State) : Leads (Executed (.ftrc m) s) (execFtrc m s) := by
  have hc : Effect (.ftrc m) s s.clearCause := .clearCause .refl rfl
  refine executes_guardFpu rfl ?_
  cases fpToInt (s.freg m) with
  | value v => exact executes_finish (hc.special .fpul rfl nofun) rfl
  | invalid v => exact executes_invalidOutcome hc ((hc.invalid rfl).special .fpul rfl nofun) rfl rfl

theorem execFloat_executes (n : FRegNum) (s : State) : Leads (Executed (.float n) s) (execFloat n s) := by
  refine executes_guardFpu rfl (executes_finish (.freg ?_ rfl) rfl)
  split
  · exact .clearCause .refl rfl
  · exact .refl

/-- The branches on T: whichever way the condition goes, the branch executes. -/
theorem executes_ite {i : Instr} {s : State} {c : Bool} {r r' : Result} (h : Leads (Executed i s) r)
    (h' : Leads (Executed i s) r') : Leads (Executed i s) (if c then r else r') := by
  split
  · exact h
  · exact h'

/-- Every next state of an instruction comes from licensed writes and one of the ways to go on. -/
theorem exec_executes (i : Instr) (s : State) : Leads (Executed i s) (exec i s) := by
  cases i with
  -- one general register, or none
  | movImm | movReg | mova | movt | swapB | swapW | xtrct | addReg | addImm | extsB | extsW | extuB | extuW | neg | sub
  | andReg | andImm | not | orReg | orImm | xorReg | xorImm | shll2 | shlr2 | shll8 | shlr8 | shll16 | shlr16 =>
    exact executes_finish (.reg .refl) rfl
  | nop => exact executes_finish .refl rfl
  | sleep => exact executes_finish (.proc .refl fun _ => rfl) rfl
  -- T, alone or with a register
  | cmpEqImm | cmpEq | cmpHs | cmpGe | cmpHi | cmpGt | cmpPl | cmpPz | cmpStr | tstReg | tstImm | clrt | sett =>
    exact executes_finish (.t .refl rfl) rfl
  | addc | addv | dt | negc | subc | subv | rotl | rotr | rotcl | rotcr | shal | shar | shll | shlr =>
    exact executes_finish (.t (.reg .refl) rfl) rfl
  | div1 => exact executes_finish (.t (.q (.reg .refl) rfl) rfl) rfl
  | div0s => exact executes_finish (.t (.m (.q .refl rfl) rfl) rfl) rfl
  | div0u => exact executes_finish (.t (.q (.m .refl rfl) rfl) rfl) rfl
  -- MACH and MACL
  | dmulsL | dmuluL => exact executes_finish (.mac .refl rfl rfl) rfl
  | mulL | mulsW | muluW => exact executes_finish (.special .macl .refl rfl nofun) rfl
  | clrmac => exact executes_finish (.special .macl (.special .mach .refl rfl nofun) rfl nofun) rfl
  | macL | macW =>
    exact executes_load .refl fun _ => executes_load (.afterFirstMacRead .refl) fun _ =>
      executes_finish (.mac (.reg (.reg .refl)) rfl rfl) rfl
  -- loads into a general register
  | movWPcRel | movLPcRel | movBLoad | movWLoad | movLLoad | movBLoadDisp | movWLoadDisp | movLLoadDisp | movBLoadIdx
  | movWLoadIdx | movLLoadIdx | movBLoadGbr | movWLoadGbr | movLLoadGbr =>
    exact executes_load .refl fun _ => executes_finish (.reg .refl) rfl
  | movBLoadInc | movWLoadInc | movLLoadInc =>
    exact executes_load .refl fun _ => executes_finish (.reg (.reg .refl)) rfl
  -- stores
  | movBStore | movBStoreDisp | movBStoreIdx | movBStoreGbr =>
    exact executes_storeByte (executes_finish (.byte .refl) rfl)
  | movWStore | movWStoreDisp | movWStoreIdx | movWStoreGbr =>
    exact executes_storeHalf (executes_finish (.half .refl) rfl)
  | movLStore | movLStoreDisp | movLStoreIdx | movLStoreGbr =>
    exact executes_storeLong (executes_finish (.long .refl) rfl)
  | movBStoreDec => exact executes_storeByte (executes_finish (.reg (.byte .refl)) rfl)
  | movWStoreDec => exact executes_storeHalf (executes_finish (.reg (.half .refl)) rfl)
  | movLStoreDec => exact executes_storeLong (executes_finish (.reg (.long .refl)) rfl)
  -- bytes of memory combined or tested
  | andB | orB | xorB =>
    exact executes_load .refl fun _ => executes_storeByte (executes_finish (.byte .refl) rfl)
  | tasB =>
    exact executes_load .refl fun _ => executes_storeByte (executes_finish (.t (.byte .refl) rfl) rfl)
  | tstB => exact executes_load .refl fun _ => executes_finish (.t .refl rfl) rfl
  -- branches
  | bf => exact executes_guardSlot rfl fun _ => executes_ite (executes_finish .refl rfl) (executes_jumpTo rfl)
  | bt => exact executes_guardSlot rfl fun _ => executes_ite (executes_jumpTo rfl) (executes_finish .refl rfl)
  | bfS =>
    exact executes_guardSlot rfl fun hs =>
      executes_ite (executes_untakenBranch rfl hs rfl) (executes_delayedBranch .refl rfl rfl hs)
  | btS =>
    exact executes_guardSlot rfl fun hs =>
      executes_ite (executes_delayedBranch .refl rfl rfl hs) (executes_untakenBranch rfl hs rfl)
  | bra | braf | jmp | rts => exact executes_guardSlot rfl fun hs => executes_delayedBranch .refl rfl rfl hs
  | bsr | bsrf | jsr =>
    exact executes_guardSlot rfl fun hs => executes_delayedBranch (.special .pr .refl rfl nofun) rfl rfl hs
  | rte => exact executes_guardSlot rfl fun hs => executes_returnFromException rfl rfl hs
  | trapa =>
    exact executes_guardSlot rfl fun _ => leads_enterException fun _ => Effect.refl.entered _ _ nofun
  -- LDC, LDS, STC, STS
  | ldcSr => exact executes_finishInhibit (.sr .refl rfl) rfl
  | ldcGbr => exact executes_finishInhibit (.special .gbr .refl rfl nofun) rfl
  | ldcVbr => exact executes_finishInhibit (.special .vbr .refl rfl nofun) rfl
  | ldsMach => exact executes_finishInhibit (.special .mach .refl rfl nofun) rfl
  | ldsMacl => exact executes_finishInhibit (.special .macl .refl rfl nofun) rfl
  | ldsPr => exact executes_finishInhibit (.special .pr .refl rfl nofun) rfl
  | ldcLSr => exact executes_load .refl fun _ => executes_finishInhibit (.reg (.sr .refl rfl)) rfl
  | ldcLGbr => exact executes_load .refl fun _ => executes_finishInhibit (.reg (.special .gbr .refl rfl nofun)) rfl
  | ldcLVbr => exact executes_load .refl fun _ => executes_finishInhibit (.reg (.special .vbr .refl rfl nofun)) rfl
  | ldsLMach => exact executes_load .refl fun _ => executes_finishInhibit (.reg (.special .mach .refl rfl nofun)) rfl
  | ldsLMacl => exact executes_load .refl fun _ => executes_finishInhibit (.reg (.special .macl .refl rfl nofun)) rfl
  | ldsLPr => exact executes_load .refl fun _ => executes_finishInhibit (.reg (.special .pr .refl rfl nofun)) rfl
  | stcSr | stcGbr | stcVbr | stsMach | stsMacl | stsPr => exact executes_finishInhibit (.reg .refl) rfl
  | stcLSr | stcLGbr | stcLVbr | stsLMach | stsLMacl | stsLPr =>
    exact executes_storeLong (executes_finishInhibit (.reg (.long .refl)) rfl)
  -- floating point
  | fabs | fadd | fdiv | fmac | fmul | fneg | fsub =>
    exact executes_guardFpu rfl (executes_arithOutcome rfl rfl rfl)
  | fcmpEq | fcmpGt => exact executes_guardFpu rfl (executes_compareOutcome rfl rfl rfl)
  | fldi0 | fldi1 | fsts | fmov => exact executes_guardFpu rfl (executes_finish (.freg .refl rfl) rfl)
  | flds => exact executes_guardFpu rfl (executes_finish (.special .fpul .refl rfl nofun) rfl)
  | float n => exact execFloat_executes n s
  | ftrc m => exact execFtrc_executes m s
  | fmovLoadIdx | fmovLoad =>
    exact executes_guardFpu rfl (executes_load .refl fun _ => executes_finish (.freg .refl rfl) rfl)
  | fmovLoadInc =>
    exact executes_guardFpu rfl (executes_load .refl fun _ => executes_finish (.reg (.freg .refl rfl)) rfl)
  | fmovStoreIdx | fmovStore =>
    exact executes_guardFpu rfl (executes_storeLong (executes_finish (.long .refl) rfl))
  | fmovStoreDec => exact executes_guardFpu rfl (executes_storeLong (executes_finish (.reg (.long .refl)) rfl))
  -- the FPU forms of LDS and STS
  | ldsFpul => exact executes_guardFpu rfl (executes_finish (.special .fpul .refl rfl nofun) rfl)
  | ldsFpscr => exact executes_guardFpu rfl (executes_finish (.special .fpscr .refl rfl fun _ => rfl) rfl)
  | ldsLFpul =>
    exact executes_guardFpu rfl
      (executes_load .refl fun _ => executes_finish (.reg (.special .fpul .refl rfl nofun)) rfl)
  | ldsLFpscr =>
    exact executes_guardFpu rfl
      (executes_load .refl fun _ => executes_finish (.reg (.special .fpscr .refl rfl fun _ => rfl)) rfl)
  | stsFpul | stsFpscr => exact executes_guardFpu rfl (executes_finish (.reg .refl) rfl)
  | stsLFpul | stsLFpscr =>
    exact executes_guardFpu rfl (executes_storeLong (executes_finish (.reg (.long .refl)) rfl))

theorem exec_executed {i : Instr} {s t : State} (h : exec i s = .next t) : Executed i s t :=
  (exec_executes i s).elim h

end Sys2Proof.Machine
end

section
/-! PROOFS. Which instructions change which registers (10_state): one induction over the licensed writes of `Effect` for
each register, then the statements on writers and on what is pending after an instruction. -/

namespace Sys2Proof.Machine

/-! ### The lists of writers agree with each other -/

/-- R17 lists the loads of SR among the writers of T. -/
theorem mayWriteT_of_loadsSr {i : Instr} (h : loadsSr i = true) : mayWriteT i = true := by
  unfold loadsSr at h
  split at h
  · rfl
  · rfl
  · rfl
  · cases h

theorem delayed_not_inhibits {i : Instr} (h : delayed i = true) : i.inhibitsInterrupts = false := by
  cases i <;> first | rfl | cases h

theorem delayed_ne_sleep {i : Instr} (h : delayed i = true) : i ≠ .sleep := by
  rintro rfl; cases h

theorem inhibits_ne_sleep {i : Instr} (h : i.inhibitsInterrupts = true) : i ≠ .sleep := by
  rintro rfl; cases h

/-! ### Bits of FPSCR under its updates -/

/-- Writes of two bits change nothing under a mask that clears both. -/
theorem setBit_setBit_and_not (w mask : Word) {i j : Nat} (b c : Bool) (hi : i < 32) (hj : j < 32)
    (hmi : mask.getLsbD i = true) (hmj : mask.getLsbD j = true) :
    setBit (setBit w i b) j c &&& ~~~mask = w &&& ~~~mask := by
  rw [setBit_and_not _ _ _ _ hj hmj, setBit_and_not _ _ _ _ hi hmi]

@[simp] theorem State.fv_clearCause (s : State) : s.clearCause.fv = s.fv := by
  simp (disch := decide) only [State.fv, State.clearCause_fpscr, getLsbD_setBit]; rfl

@[simp] theorem State.fz_clearCause (s : State) : s.clearCause.fz = s.fz := by
  simp (disch := decide) only [State.fz, State.clearCause_fpscr, getLsbD_setBit]; rfl

@[simp] theorem State.fv_setInvalid (s : State) : s.setInvalid.fv = true := by
  simp (disch := decide) only [State.fv, State.setInvalid_fpscr, getLsbD_setBit]; rfl

@[simp] theorem State.fz_setInvalid (s : State) : s.setInvalid.fz = s.fz := by
  simp (disch := decide) only [State.fz, State.setInvalid_fpscr, getLsbD_setBit]; rfl

@[simp] theorem State.fv_setDivZero (s : State) : s.setDivZero.fv = s.fv := by
  simp (disch := decide) only [State.fv, State.setDivZero_fpscr, getLsbD_setBit]; rfl

@[simp] theorem State.fz_setDivZero (s : State) : s.setDivZero.fz = true := by
  simp (disch := decide) only [State.fz, State.setDivZero_fpscr, getLsbD_setBit]; rfl

/-! ### What licensed writes leave unchanged -/

namespace Effect

variable {i : Instr} {s w : State}

theorem t_eq (h : Effect i s w) (hi : mayWriteT i = false) : w.t = s.t := by
  induction h with
  | refl => rfl
  | t _ ht => simp [hi] at ht
  | sr _ hl => simp [mayWriteT_of_loadsSr hl] at hi
  | proc _ _ ih => exact ih
  | _ => rename_i ih; simpa using ih

/-- Only a load of SR reaches the bits outside T, Q and M. -/
theorem sr_eq (h : Effect i s w) (hi : loadsSr i = false) : w.sr &&& ~~~srTQM = s.sr &&& ~~~srTQM := by
  induction h with
  | refl => rfl
  | t _ _ ih => rw [State.setT_sr, setBit_and_not _ _ _ _ (by decide) (by decide), ih]
  | q _ _ ih => rw [State.setQ_sr, setBit_and_not _ _ _ _ (by decide) (by decide), ih]
  | m _ _ ih => rw [State.setM_sr, setBit_and_not _ _ _ _ (by decide) (by decide), ih]
  | sr _ hl => simp [hi] at hl
  | proc _ _ ih => exact ih
  | _ => rename_i ih; simpa using ih

theorem qm_eq (h : Effect i s w) (hi : loadsSr i = false) (hd : dividesStep i = false) : w.q = s.q ∧ w.m = s.m := by
  induction h with
  | refl => exact ⟨rfl, rfl⟩
  | q _ hq => simp [hd] at hq
  | m _ hm => simp [hd] at hm
  | sr _ hl => simp [hi] at hl
  | proc _ _ ih => exact ih
  | _ => rename_i ih; simpa using ih

theorem special_eq (h : Effect i s w) {r : Special} (hi : mayWriteSpecial i r = false) : w.special r = s.special r := by
  induction h with
  | refl => rfl
  | special q _ hq _ ih =>
    rw [State.special_writeSpecial_of_ne _ _ (by rintro rfl; simp [hi] at hq), ih]
  | clearCause _ hf ih | invalid _ hf ih | divZero _ hf ih => cases r <;> first | exact ih | simp [hi] at hf
  | _ => rename_i ih; cases r <;> simpa [State.special] using ih

theorem freg_eq (h : Effect i s w) {r : FRegNum} (hi : writesFreg i ≠ some r) : w.freg r = s.freg r := by
  induction h with
  | refl => rfl
  | freg _ hn ih => rw [State.freg_setFreg_of_ne _ _ (by rintro rfl; exact hi hn), ih]
  | proc _ _ ih => exact ih
  | _ => rename_i ih; simpa using ih

/-- FPSCR changes only by a load of it or by the cause and flag bits. -/
theorem fpscr_eq (h : Effect i s w) (hi : loadsFpscr i = false) :
    w.fpscr &&& ~~~(0x00018060 : Word) = s.fpscr &&& ~~~(0x00018060 : Word) := by
  induction h with
  | refl => rfl
  | special r _ _ hf ih =>
    rw [State.writeSpecial_fpscr _ _ (by intro e; simp [hi] at hf; exact hf e), ih]
  | clearCause _ _ ih | invalid _ _ ih | divZero _ _ ih =>
    exact (setBit_setBit_and_not _ _ _ _ (by decide) (by decide) (by decide) (by decide)).trans ih
  | proc _ _ ih => exact ih
  | _ => rename_i ih; simpa using ih

/-- A set flag stays set: the instructions of R314 only set FV and FZ. -/
theorem flags_kept (h : Effect i s w) (hi : loadsFpscr i = false) :
    (s.fv = true → w.fv = true) ∧ (s.fz = true → w.fz = true) := by
  induction h with
  | refl => exact ⟨id, id⟩
  | special r _ _ hf ih =>
    have hr : r ≠ .fpscr := by rintro rfl; simp [hi] at hf
    simpa [State.fv, State.fz, State.writeSpecial_fpscr _ _ hr] using ih
  | clearCause _ _ ih => rwa [State.fv_clearCause, State.fz_clearCause]
  | invalid _ _ ih => rw [State.fv_setInvalid, State.fz_setInvalid]; exact ⟨fun _ => rfl, ih.2⟩
  | divZero _ _ ih => rw [State.fv_setDivZero, State.fz_setDivZero]; exact ⟨ih.1, fun _ => rfl⟩
  | proc _ _ ih => exact ih
  | _ => rename_i ih; simpa [State.fv, State.fz] using ih

/-- The CPU is asleep after an instruction only by SLEEP or because it was. -/
theorem asleep (h : Effect i s w) (hw : w.proc = .sleep) : i = .sleep ∨ s.proc = .sleep := by
  induction h with
  | refl => exact .inr hw
  | proc _ hp => exact .inl (hp hw)
  | _ => rename_i ih; exact ih (by simpa using hw)

end Effect

/-! ### The statements on writers -/

/-- Settles O16: of the licensed writes only those of T and of the whole SR reach bit 0, and R17 lists both. -/
theorem tBitWriters : Obligations.TBitWriters := by
  intro i s t hi h
  obtain ⟨data, _⟩ := exec_executed h
  exact data.t_eq hi

/-- Settles O17: only a load of SR writes outside T, Q and M, and exception entry leaves SR as it is. -/
theorem srWriters : Obligations.SrWriters := by
  intro i s t hi h
  obtain ⟨data, _⟩ := exec_executed h
  exact ⟨data.sr_eq hi, data.qm_eq hi⟩

/-- Settles O18: every licensed write of a special register is one its list allows. -/
theorem specialRegisterWriters : Obligations.SpecialRegisterWriters := by
  intro i r s t hi h
  obtain ⟨data, _⟩ := exec_executed h
  have hr := data.special_eq hi
  cases r <;> exact hr

/-- Settles O19: the only licensed write of a floating-point register is to the destination. -/
theorem floatRegisterWriters : Obligations.FloatRegisterWriters := by
  intro i r s t hi h
  obtain ⟨data, _⟩ := exec_executed h
  exact data.freg_eq hi

/-- Settles O20: without a load of FPSCR only its cause and flag bits are written, and the flags are only set. -/
theorem fpscrFlagsAreSticky : Obligations.FpscrFlagsAreSticky := by
  intro i s t hi h
  obtain ⟨data, _⟩ := exec_executed h
  obtain ⟨hv, hz⟩ := data.flags_kept hi
  exact ⟨hv, hz, data.fpscr_eq hi⟩

/-! ### The statements on what is pending after an instruction -/

/-- Settles O21: of the ways to go on, only a delayed branch outside a slot leaves something pending. -/
theorem pendingBranches : Obligations.PendingBranches := by
  intro i s t h
  obtain ⟨_, control⟩ := exec_executed h
  cases control with
  | ends | raises => exact ⟨nofun, nofun⟩
  | branches target hd hs => exact ⟨fun _ _ => ⟨hd, hs, rfl, rfl⟩, nofun⟩
  | untaken hp hd hs => exact ⟨nofun, fun _ => ⟨hp, hd, hs, rfl⟩⟩

/-- SLEEP enters sleep mode. -/
theorem exec_sleep_proc {s t : State} (h : exec .sleep s = .next t) : t.proc = .sleep := by
  cases h; rfl

/-- Settles O22: the inhibit is that of the class at every end but an exception, and only SLEEP writes the sleep
mode. -/
theorem inhibitAndSleepWriters : Obligations.InhibitAndSleepWriters := by
  intro i s t h
  refine ⟨?_, ?_, ?_, fun hs => exec_sleep_proc (hs ▸ h)⟩
  · obtain ⟨_, control⟩ := exec_executed h
    intro ht
    cases control with
    | ends _ hi => exact hi.trans ht
    | branches | untaken | raises => cases ht
  · obtain ⟨_, control⟩ := exec_executed h
    intro hi hp
    cases control with
    | ends _ he => exact he.symm.trans hi
    | branches _ hd | untaken _ hd => rw [delayed_not_inhibits hd] at hi; cases hi
    | raises _ he => exact absurd hp (he hi)
  · obtain ⟨data, _⟩ := exec_executed h
    exact data.asleep

end Sys2Proof.Machine
end

section
/-! PROOFS. The invariant of Safety.lean: its part on memory, SR, FPSCR and the addresses stored to is kept by every
licensed write and by exception entry; its part on sleep and pending branches follows from how execution goes on. -/

namespace Sys2Proof.Machine

/-! ### Bits outside SR_MASK -/

/-- What agrees outside a set of bits agrees outside a greater one. -/
theorem and_not_congr_of_subset {x y small mask : Word} (hs : small ||| mask = mask)
    (h : x &&& ~~~small = y &&& ~~~small) : x &&& ~~~mask = y &&& ~~~mask := by
  have hm : ~~~mask = ~~~small &&& ~~~mask := by rw [← BitVec.not_or, hs]
  rw [hm, ← BitVec.and_assoc, ← BitVec.and_assoc, h]

/-- I3-I0 hold a written value whatever `SR_MASK` is (R21). -/
theorem imask_or_srWriteMask (p : Params) : 0x000000F0 ||| srWriteMask p = srWriteMask p := by
  unfold srWriteMask
  rw [BitVec.or_comm, BitVec.or_assoc]
  rfl

theorem or_and_not (x y : Word) : (x ||| y) &&& ~~~x = y &&& ~~~x := by
  apply BitVec.eq_of_getLsbD_eq
  intro i hi
  cases h : x.getLsbD i <;> simp [h]

/-- SR after a reset input holds no bit outside `SR_MASK`, whatever its free bits are. -/
theorem reset_sr_legal (p : Params) (v : Word) :
    (0x000000F0 ||| (v &&& srWriteMask p)) &&& ~~~(srWriteMask p) = 0 :=
  (and_not_congr_of_subset (imask_or_srWriteMask p) (or_and_not _ _)).trans (and_and_not _ _)

/-! ### The registers after a reset input -/

@[simp] theorem State.resetRegisters_sr (s : State) :
    s.resetRegisters.sr = 0x000000F0 ||| (Config.resetWord s.tick 16 &&& srWriteMask s.params) := by
  rw [State.resetRegisters]

@[simp] theorem State.resetRegisters_fpscr (s : State) : s.resetRegisters.fpscr = 0x00040001 := by
  rw [State.resetRegisters]

@[simp] theorem State.resetRegisters_mem (s : State) : s.resetRegisters.mem = s.mem := by
  rw [State.resetRegisters]

@[simp] theorem State.resetRegisters_slot (s : State) : s.resetRegisters.slot = .none := by
  rw [State.resetRegisters]

@[simp] theorem State.resetRegisters_proc (s : State) : s.resetRegisters.proc = .run := by
  rw [State.resetRegisters]

@[simp] theorem State.resetRegisters_params (s : State) : s.resetRegisters.params = s.params := by
  rw [State.resetRegisters]

@[simp] theorem State.resetRegisters_stored (s : State) : s.resetRegisters.stored = [] := by
  rw [State.resetRegisters]

/-! ### The part of the invariant that writes can touch -/

/-- The invariant but for what it says of sleep and of the pending branch. -/
structure State.DataInv (s : State) : Prop where
  memory : s.mem.wf = true
  sr : s.srLegal
  fpscr : s.fpscrLegal
  storedRising : s.stored.Pairwise (· < ·)
  storedNone : s.params.fetchCoherent = true → s.stored = []

theorem State.Inv.data {s : State} (h : s.Inv) : s.DataInv := { h with }

theorem State.DataInv.inv {s : State} (h : s.DataInv) (hp : s.proc = .sleep → s.slot = .none ∧ s.inhibit = false)
    (hu : s.slot = .untaken → s.params.untakenSlotIsSlot = true) : s.Inv :=
  { h with sleeping := hp, untaken := hu }

/-- Running with no branch pending, a state has the invariant where its data has. -/
theorem State.DataInv.inv_of_run {s : State} (h : s.DataInv) (hp : s.proc = .run) (hs : s.slot = .none) : s.Inv :=
  h.inv (by simp [hp]) (by simp [hs])

namespace State.DataInv

variable {s : State}

theorem setReg (h : s.DataInv) (n : RegNum) (v : Word) : (s.setReg n v).DataInv := { h with }

theorem setFreg (h : s.DataInv) (n : FRegNum) (v : Word) : (s.setFreg n v).DataInv := { h with }

theorem setT (h : s.DataInv) (b : Bool) : (s.setT b).DataInv :=
  { h with sr := setBit_and_not_mask _ _ 0 b (by decide) h.sr }

theorem setQ (h : s.DataInv) (b : Bool) : (s.setQ b).DataInv :=
  { h with sr := setBit_and_not_mask _ _ 8 b (by decide) h.sr }

theorem setM (h : s.DataInv) (b : Bool) : (s.setM b).DataInv :=
  { h with sr := setBit_and_not_mask _ _ 9 b (by decide) h.sr }

theorem writeSr (h : s.DataInv) (v : Word) : (s.writeSr v).DataInv := { h with sr := and_and_not _ _ }

theorem writeSpecial (h : s.DataInv) (r : Special) (v : Word) : (s.writeSpecial r v).DataInv := by
  cases r with
  | fpscr => exact { h with fpscr := fpscrValue_and v }
  | _ => exact { h with }

theorem clearCause (h : s.DataInv) : s.clearCause.DataInv :=
  { h with fpscr := s.fpscr_clearCause_and.trans h.fpscr }

theorem setInvalid (h : s.DataInv) : s.setInvalid.DataInv :=
  { h with fpscr := s.fpscr_setInvalid_and.trans h.fpscr }

theorem setDivZero (h : s.DataInv) : s.setDivZero.DataInv :=
  { h with fpscr := s.fpscr_setDivZero_and.trans h.fpscr }

theorem putByte (h : s.DataInv) (a : Word) (v : Byte) : (s.putByte a v).DataInv where
  memory := State.putByte_mem_wf a v h.memory
  sr := by simpa [State.srLegal] using h.sr
  fpscr := by simpa [State.fpscrLegal] using h.fpscr
  storedRising := State.putByte_stored_rising a v h.storedRising
  storedNone hc := by
    rw [State.putByte_params] at hc
    rw [State.putByte_stored_none a v hc, h.storedNone hc]

theorem putLong (h : s.DataInv) (a v : Word) : (s.putLong a v).DataInv :=
  (((h.putByte _ _).putByte _ _).putByte _ _).putByte _ _

theorem scrambleLong (h : s.DataInv) (a : Word) : (s.scrambleLong a).DataInv :=
  (((h.putByte _ _).putByte _ _).putByte _ _).putByte _ _

theorem scrambleAround (h : s.DataInv) (a : Word) (width : Nat) : (s.scrambleAround a width).DataInv :=
  (h.scrambleLong _).scrambleLong _

theorem setImask (h : s.DataInv) (level : BitVec 4) : (s.setImask level).DataInv :=
  { h with sr := (and_not_congr_of_subset (imask_or_srWriteMask _) (s.sr_setImask_and level)).trans h.sr }

theorem pushed (h : s.DataInv) (stackedPc : Word) : (s.pushed stackedPc).DataInv := (h.putLong _ _).putLong _ _

/-- An exception or interrupt entry pushes two longwords, lowers R15, and may set I3-I0. -/
theorem entered (h : s.DataInv) (v : BitVec 8) (stackedPc : Word) (level : Option (BitVec 4)) :
    (s.entered v stackedPc level).DataInv where
  memory := by rw [State.entered_mem]; exact (h.pushed _).memory
  sr := by
    rw [State.srLegal, State.entered_params]
    cases level with
    | none => rw [State.entered_sr_none]; exact h.sr
    | some l => rw [State.entered_sr_some]; exact (h.setImask l).sr
  fpscr := by rw [State.fpscrLegal, State.entered_fpscr]; exact h.fpscr
  storedRising := by rw [State.entered_stored]; exact (h.pushed _).storedRising
  storedNone hc := by
    rw [State.entered_params] at hc
    rw [State.entered_stored]
    exact (h.pushed stackedPc).storedNone (by simpa [State.pushed] using hc)

theorem entered_inv (h : s.DataInv) (v : BitVec 8) (stackedPc : Word) (level : Option (BitVec 4)) :
    (s.entered v stackedPc level).Inv :=
  (h.entered v stackedPc level).inv_of_run (State.entered_proc _ _ _ _) (State.entered_slot _ _ _ _)

theorem resetRegisters (h : s.DataInv) : s.resetRegisters.DataInv where
  memory := by rw [State.resetRegisters_mem]; exact h.memory
  sr := by
    rw [State.srLegal, State.resetRegisters_sr, State.resetRegisters_params]
    exact reset_sr_legal _ _
  fpscr := by rw [State.fpscrLegal, State.resetRegisters_fpscr]; decide
  storedRising := by rw [State.resetRegisters_stored]; exact .nil
  storedNone _ := State.resetRegisters_stored s

theorem setPc (h : s.DataInv) (pc : Word) : ({ s with pc := pc } : State).DataInv := { h with }

end State.DataInv

/-- Licensed writes keep the data part of the invariant. -/
theorem Effect.dataInv {i : Instr} {s w : State} (h : Effect i s w) (hs : s.DataInv) : w.DataInv := by
  induction h with
  | refl => exact hs
  | reg _ ih => exact ih.setReg _ _
  | byte _ ih => exact ih.putByte _ _
  | freg _ _ ih => exact ih.setFreg _ _
  | t _ _ ih => exact ih.setT _
  | q _ _ ih => exact ih.setQ _
  | m _ _ ih => exact ih.setM _
  | sr _ _ ih => exact ih.writeSr _
  | special r _ _ _ ih => exact ih.writeSpecial r _
  | clearCause _ _ ih => exact ih.clearCause
  | invalid _ _ ih => exact ih.setInvalid
  | divZero _ _ ih => exact ih.setDivZero
  | proc _ _ ih => exact { ih with }

/-! ### Every boundary keeps the invariant -/

/-- Only SLEEP lets the CPU sleep, and it leaves no branch pending and no inhibit. -/
theorem Continues.of_sleep {s : State} {pc : Word} {slot : Slot} {inhibit : Bool}
    (h : Continues .sleep s pc slot inhibit) : slot = .none ∧ inhibit = false := by
  cases h with
  | ends _ hi => exact ⟨rfl, hi.symm⟩
  | branches _ hd | untaken _ hd => cases hd
  | raises => exact ⟨rfl, rfl⟩

theorem Continues.untaken_param {i : Instr} {s : State} {pc : Word} {slot : Slot} {inhibit : Bool}
    (h : Continues i s pc slot inhibit) (hs : slot = .untaken) : s.params.untakenSlotIsSlot = true := by
  cases h with
  | untaken hp => exact hp
  | ends | branches | raises => cases hs

theorem Executed.inv {i : Instr} {s t : State} (h : Executed i s t) (hs : s.Inv) (hr : s.proc = .run) : t.Inv := by
  obtain ⟨data, control⟩ := h
  refine State.DataInv.inv { data.dataInv hs.data with } (fun hp => ?_) (fun hu => ?_)
  · rcases data.asleep hp with rfl | hsleep
    · exact control.of_sleep
    · rw [hr] at hsleep; cases hsleep
  · exact data.params ▸ control.untaken_param hu

theorem State.Inv.beginStep {s : State} (h : s.Inv) : s.beginStep.Inv := { h with }

theorem leads_inv_raiseIllegal {s : State} (h : s.DataInv) : Leads State.Inv (raiseIllegal s) :=
  leads_raiseIllegal fun _ _ => h.entered_inv _ _ _

theorem leads_inv_raiseMem {s : State} (h : s.DataInv) (e : MemErr) : Leads State.Inv (raiseMem e s) :=
  leads_raiseMem (fun _ _ _ => h.entered_inv _ _ _) (fun _ _ _ _ _ => (h.scrambleAround _ _).entered_inv _ _ _)

theorem leads_inv_enterReset {s : State} (h : s.DataInv) (kind : ResetKind) : Leads State.Inv (enterReset kind s) := by
  intro t e
  obtain ⟨pc, sp, rfl⟩ := enterReset_next e
  exact ((h.resetRegisters.setReg spNum sp).setPc pc).inv_of_run (State.resetRegisters_proc s)
    (State.resetRegisters_slot s)

theorem leads_inv_sleepOrRun {s : State} (h : s.Inv) : Leads State.Inv (sleepOrRun exec s) :=
  leads_sleepOrRun (fun _ => h) (fun hr _ _ e => (exec_executed e).inv h hr)
    (fun _ => leads_inv_raiseIllegal h.data) (fun _ => leads_inv_raiseMem h.data)

/-- Settles O12: a reset, an interrupt entry, sleep and an executed instruction each keep the invariant. -/
theorem stepInvariant : Obligations.StepInvariant := by
  intro s t hs h
  have hb := hs.beginStep
  refine (leads_step (P := State.Inv) (fun kind _ => ?_) (fun irq _ _ => ?_) ?_).elim h
  · exact leads_inv_enterReset hb.data kind
  · exact leads_enterException fun _ => hb.data.entered_inv _ _ _
  · exact leads_inv_sleepOrRun hb

/-! ### Reset -/

theorem reset_dataInv : State.reset.DataInv where
  memory := rfl
  sr := by show _ = _; decide
  fpscr := by show _ = _; decide
  storedRising := .nil
  storedNone _ := rfl

/-- Settles O13: blank memory is canonical, and nothing is pending. -/
theorem resetInvariant : Obligations.ResetInvariant := reset_dataInv.inv_of_run rfl rfl

/-- Settles O14: the blank vector table reads 0 at both entries, as `State.reset` has them. -/
theorem resetValues : Obligations.ResetValues := by
  refine ⟨?_, ?_, rfl, rfl, rfl, rfl, rfl, rfl, ?_, ?_⟩ <;> decide

end Sys2Proof.Machine
end

section
/-! PROOFS. LDC, LDS, STC and STS between registers (45_system_control): the bounds of SR_MASK, and one lemma per shape
of the interrupt-disabled moves. -/

namespace Sys2Proof.Machine

/-! ### The bounds of SR_MASK (R21) -/

/-- Neither what a mask `a` lets through nor the bits `b` set beside it reach bits outside both. -/
theorem and_or_and_eq_zero {a b c : Word} (x : Word) (ha : a &&& c = 0) (hb : b &&& c = 0) :
    (x &&& a ||| b) &&& c = 0 := by
  ext j hj
  have haj := congrArg (fun w : Word => w[j]) ha
  have hbj := congrArg (fun w : Word => w[j]) hb
  simp only [BitVec.getElem_and, BitVec.getElem_or] at haj hbj ⊢
  grind

theorem or_and_self (x b : Word) : (x ||| b) &&& b = b := by
  ext j hj
  simp only [BitVec.getElem_and, BitVec.getElem_or]
  grind

/-- A value within the bounds is not changed by being brought inside them. -/
theorem and_not_or_eq_self {x b c : Word} (hc : x &&& c = 0) (hb : x &&& b = b) : x &&& ~~~c ||| b = x := by
  ext j hj
  have hcj := congrArg (fun w : Word => w[j]) hc
  have hbj := congrArg (fun w : Word => w[j]) hb
  simp only [BitVec.getElem_and, BitVec.getElem_or, BitVec.getElem_not] at hcj hbj ⊢
  grind

theorem srWriteMask_and_reserved (p : Params) : srWriteMask p &&& 0xF000F000 = 0 :=
  and_or_and_eq_zero _ (by decide) (by decide)

theorem srWriteMask_and_held (p : Params) : srWriteMask p &&& 0x000003F3 = 0x000003F3 :=
  or_and_self _ _

/-- A parameter within the bounds is the mask itself. -/
theorem srWriteMask_of_bounds {p : Params} (hr : p.srMask &&& 0xF000F000 = 0)
    (hh : p.srMask &&& 0x000003F3 = 0x000003F3) : srWriteMask p = p.srMask :=
  and_not_or_eq_self hr hh

/-! ### The interrupt-disabled moves -/

/-- A code is decoded nibble by nibble. -/
theorem decode_nibbles {a n m d : BitVec 4} {i : Instr} (h : decodeNibbles a n m d = some i) :
    decode (nibbles a n m d) = .ok i := by
  simp only [decode, nibbles_extract_12, nibbles_extract_8, nibbles_extract_4, nibbles_extract_0, h]

theorem State.sameButSpecials_writeSpecial (s : State) (r : Special) (v : Word) :
    SameButSpecials s (s.writeSpecial r v) := by
  cases r <;> exact ⟨rfl, rfl, rfl, rfl, rfl, rfl, rfl, rfl, rfl, rfl, rfl⟩

theorem State.special_writeSpecial_self (s : State) {r : Special} (v : Word) (h : r ≠ .fpscr) :
    (s.writeSpecial r v).special r = v := by
  cases r with
  | fpscr => exact absurd rfl h
  | _ => rfl

/-- A load of a special register from a general one by an interrupt-disabled instruction. -/
theorem finishInhibit_writeSpecial (s : State) {r : Special} (v : Word) (h : r ≠ .fpscr) :
    ∃ t, finishInhibit (s.writeSpecial r v) = .next t ∧ WroteSpecial r v true s t :=
  finishInhibit_wroteSpecial (s.sameButSpecials_writeSpecial r v) (s.special_writeSpecial_self v h)
    fun _ hq => s.special_writeSpecial_of_ne v hq

/-- A load of SR: the bits of `SR_MASK`, and no other register. -/
theorem finishInhibit_writeSr (s : State) (v : Word) :
    ∃ t, finishInhibit (s.writeSr v) = .next t ∧ t.sr = v &&& srWriteMask s.params ∧
      Frame [] [] [] 0xFFFFFFFF s t ∧ MemKept s t ∧ Completed true s t := by
  refine ⟨_, rfl, rfl, ⟨fun _ _ => rfl, fun _ _ => rfl, fun r _ => ?_, ?_, rfl, rfl, rfl, rfl⟩,
    ⟨fun _ _ => rfl, rfl⟩, ⟨rfl, rfl, rfl, rfl⟩⟩
  · cases r <;> rfl
  · exact (BitVec.and_zero).trans (BitVec.and_zero).symm

/-- Settles O45, move by move: the code decodes to the instruction, whose end is one of three shapes. -/
theorem controlRegisterMoves : Obligations.ControlRegisterMoves := fun s m =>
  ⟨⟨decode_nibbles rfl, finishInhibit_writeSr s (s.reg m)⟩,
    srWriteMask_and_reserved _, srWriteMask_and_held _, srWriteMask_of_bounds,
    ⟨decode_nibbles rfl, finishInhibit_writeSpecial s (r := .gbr) _ nofun⟩,
    ⟨decode_nibbles rfl, finishInhibit_writeSpecial s (r := .vbr) _ nofun⟩,
    ⟨decode_nibbles rfl, finishInhibit_writeSpecial s (r := .mach) _ nofun⟩,
    ⟨decode_nibbles rfl, finishInhibit_writeSpecial s (r := .macl) _ nofun⟩,
    ⟨decode_nibbles rfl, finishInhibit_writeSpecial s (r := .pr) _ nofun⟩,
    ⟨decode_nibbles rfl, finishInhibit_wroteReg m s.sr s⟩,
    ⟨decode_nibbles rfl, finishInhibit_wroteReg m s.gbr s⟩,
    ⟨decode_nibbles rfl, finishInhibit_wroteReg m s.vbr s⟩,
    ⟨decode_nibbles rfl, finishInhibit_wroteReg m s.mach s⟩,
    ⟨decode_nibbles rfl, finishInhibit_wroteReg m s.macl s⟩,
    ⟨decode_nibbles rfl, finishInhibit_wroteReg m s.pr s⟩⟩

end Sys2Proof.Machine
end

section
/-! PROOFS. Memory accesses (20_memory): which fail for their alignment, what a load reads after a store, and the byte
order of words and longwords. -/

namespace Sys2Proof.Machine

/-! ### A load or store fails exactly with the error of its access -/

theorem State.loadByte_error_iff {s : State} {k : Nat} {a : Word} {e : MemErr} :
    s.loadByte k a = .error e ↔ s.accessError .read 1 a = some e := by
  unfold State.loadByte; split <;> simp [*]

theorem State.loadHalf_error_iff {s : State} {k : Nat} {a : Word} {e : MemErr} :
    s.loadHalf k a = .error e ↔ s.accessError .read 2 a = some e := by
  unfold State.loadHalf; split <;> simp [*]

theorem State.loadLong_error_iff {s : State} {k : Nat} {a : Word} {e : MemErr} :
    s.loadLong k a = .error e ↔ s.accessError .read 4 a = some e := by
  unfold State.loadLong; split <;> simp [*]

theorem State.storeByte_error_iff {s : State} {a : Word} {v : Byte} {e : MemErr} :
    s.storeByte a v = .error e ↔ s.accessError .write 1 a = some e := by
  unfold State.storeByte; split <;> simp [*]

theorem State.storeHalf_error_iff {s : State} {a : Word} {v : Half} {e : MemErr} :
    s.storeHalf a v = .error e ↔ s.accessError .write 2 a = some e := by
  unfold State.storeHalf; split <;> simp [*]

theorem State.storeLong_error_iff {s : State} {a v : Word} {e : MemErr} :
    s.storeLong a v = .error e ↔ s.accessError .write 4 a = some e := by
  unfold State.storeLong; split <;> simp [*]

/-! ### Alignment (R54) -/

/-- Only the alignment makes an access misaligned, and the error says which access it was. -/
theorem State.accessError_misaligned_iff {s : State} {kind kind' : AccessKind} {width width' : Nat} {a b : Word} :
    s.accessError kind width a = some (.misaligned b kind' width') ↔
      a.toNat % width ≠ 0 ∧ a = b ∧ kind = kind' ∧ width = width' := by
  by_cases h : a.toNat % width = 0
  · unfold State.accessError
    rw [if_neg (not_not.2 h)]
    simp only [h, ne_eq, not_true, false_and, iff_false]
    split_ifs <;> simp
  · rw [State.accessError_of_misaligned h]
    simp [h]

theorem State.accessError_misaligned_self {s : State} {kind : AccessKind} {width : Nat} {a : Word} :
    s.accessError kind width a = some (.misaligned a kind width) ↔ a.toNat % width ≠ 0 := by
  simp [State.accessError_misaligned_iff]

theorem State.accessError_byte_ne_misaligned {s : State} {kind kind' : AccessKind} {width' : Nat} {a b : Word} :
    s.accessError kind 1 a ≠ some (.misaligned b kind' width') :=
  fun h => (State.accessError_misaligned_iff.1 h).1 (Nat.mod_one _)

theorem odd_iff_getLsbD_zero (a : Word) : a.toNat % 2 ≠ 0 ↔ a.getLsbD 0 = true := by
  rw [BitVec.getLsbD, Nat.testBit_zero, decide_eq_true_iff, Nat.mod_two_ne_zero]

theorem mod_four_iff_extractLsb' (a : Word) : a.toNat % 4 ≠ 0 ↔ a.extractLsb' 0 2 ≠ 0 := by
  rw [ne_eq (a.extractLsb' 0 2), ← BitVec.toNat_inj]; rfl

theorem State.accessError_half_iff {s : State} {kind : AccessKind} {a : Word} :
    s.accessError kind 2 a = some (.misaligned a kind 2) ↔ a.getLsbD 0 = true :=
  State.accessError_misaligned_self.trans (odd_iff_getLsbD_zero a)

theorem State.accessError_long_iff {s : State} {kind : AccessKind} {a : Word} :
    s.accessError kind 4 a = some (.misaligned a kind 4) ↔ a.extractLsb' 0 2 ≠ 0 :=
  State.accessError_misaligned_self.trans (mod_four_iff_extractLsb' a)

/-- Settles O25: each access fails exactly as `accessError` says, whose first test is the alignment. -/
theorem alignmentErrors : Obligations.AlignmentErrors := fun _ _ _ =>
  ⟨State.loadHalf_error_iff.trans State.accessError_half_iff,
    State.loadLong_error_iff.trans State.accessError_long_iff,
    fun _ => State.storeHalf_error_iff.trans State.accessError_half_iff,
    fun _ => State.storeLong_error_iff.trans State.accessError_long_iff,
    fun _ _ _ h => State.accessError_byte_ne_misaligned (State.loadByte_error_iff.1 h),
    fun _ _ _ _ h => State.accessError_byte_ne_misaligned (State.storeByte_error_iff.1 h)⟩

/-! ### Read after write -/

theorem State.InRam.head {s : State} {width : Nat} {a : Word} (h : s.InRam (width + 1) a) : s.kindAt a = .ram := by
  simpa using h 0 (Nat.succ_pos width)

/-- Settles O23: a store that succeeds was writable, so the load of its width is readable, and reads the bytes put. -/
theorem storeThenLoad : Obligations.StoreThenLoad := by
  intro s a k hm
  refine ⟨fun v t h hr => ?_, fun v t h hr => ?_, fun v t h hr => ?_⟩
  · obtain ⟨hw, rfl⟩ := State.storeByte_eq_ok h
    refine ⟨?_, State.memKeptOutside_putByte a v hm⟩
    rw [State.loadByte_of_readable (hw.1.of_params (State.putByte_params s a v)),
      State.byteAt_putByte_self k v hm hr.head]
  · obtain ⟨hw, rfl⟩ := State.storeHalf_eq_ok h
    refine ⟨?_, State.memKeptOutside_putHalf a v hm⟩
    rw [State.loadHalf_of_readable (hw.1.of_params (State.putHalf_params s a v)), State.halfAt_putHalf k a v hm hr]
  · obtain ⟨hw, rfl⟩ := State.storeLong_eq_ok h
    refine ⟨?_, State.memKeptOutside_putLong a v hm⟩
    rw [State.loadLong_of_readable (hw.1.of_params (State.putLong_params s a v)), State.longAt_putLong k a v hm hr]

/-! ### Byte order (R52) -/

/-- The bytes that were joined into a word are its bytes, in either order. -/
theorem byteOf16_join16 (be : Bool) (b0 b1 : Byte) :
    byteOf16 be (join16 be b0 b1) 0 = b0 ∧ byteOf16 be (join16 be b0 b1) 1 = b1 := by
  cases be <;> constructor <;>
  · simp only [byteOf16, join16, if_true, if_false, Bool.false_eq_true]
    apply BitVec.eq_of_getLsbD_eq
    intro i hi
    simp only [BitVec.getLsbD_extractLsb', BitVec.getLsbD_append]
    grind

theorem byteOf32_join32 (be : Bool) (b0 b1 b2 b3 : Byte) :
    byteOf32 be (join32 be b0 b1 b2 b3) 0 = b0 ∧ byteOf32 be (join32 be b0 b1 b2 b3) 1 = b1 ∧
      byteOf32 be (join32 be b0 b1 b2 b3) 2 = b2 ∧ byteOf32 be (join32 be b0 b1 b2 b3) 3 = b3 := by
  cases be <;> refine ⟨?_, ?_, ?_, ?_⟩ <;>
  · simp only [byteOf32, join32, if_true, if_false, Bool.false_eq_true]
    apply BitVec.eq_of_getLsbD_eq
    intro i hi
    simp only [BitVec.getLsbD_extractLsb', BitVec.getLsbD_append]
    grind

/-- The bytes of a word stored into RAM: the word read back, taken apart. -/
theorem State.storeHalf_byteAt {s t : State} {k : Nat} {a : Word} {v : Half} {be : Bool} (hm : s.mem.wf = true)
    (hr : s.InRam 2 a) (h : s.storeHalf a v = .ok t) (hb : s.params.bigEndian = be) :
    t.byteAt k a = byteOf16 be v 0 ∧ t.byteAt k (a + 1) = byteOf16 be v 1 := by
  obtain ⟨-, rfl⟩ := State.storeHalf_eq_ok h
  have hv := State.halfAt_putHalf k a v hm hr
  rw [State.halfAt, State.putHalf_params, hb] at hv
  have hbytes := byteOf16_join16 be ((s.putHalf a v).byteAt k a) ((s.putHalf a v).byteAt k (a + 1))
  rw [hv] at hbytes
  exact hbytes.imp Eq.symm Eq.symm

/-- The bytes of a longword stored into RAM. -/
theorem State.storeLong_byteAt {s t : State} {k : Nat} {a v : Word} {be : Bool} (hm : s.mem.wf = true)
    (hr : s.InRam 4 a) (h : s.storeLong a v = .ok t) (hb : s.params.bigEndian = be) :
    t.byteAt k a = byteOf32 be v 0 ∧ t.byteAt k (a + 1) = byteOf32 be v 1 ∧
      t.byteAt k (a + 2) = byteOf32 be v 2 ∧ t.byteAt k (a + 3) = byteOf32 be v 3 := by
  obtain ⟨-, rfl⟩ := State.storeLong_eq_ok h
  have hv := State.longAt_putLong k a v hm hr
  rw [State.longAt, State.putLong_params, hb] at hv
  have hbytes := byteOf32_join32 be ((s.putLong a v).byteAt k a) ((s.putLong a v).byteAt k (a + 1))
    ((s.putLong a v).byteAt k (a + 2)) ((s.putLong a v).byteAt k (a + 3))
  rw [hv] at hbytes
  exact hbytes.imp Eq.symm (And.imp Eq.symm (And.imp Eq.symm Eq.symm))

/-- Settles O24: reads join their bytes, and stores take the value apart, in the order of the parameter. -/
theorem byteOrder : Obligations.ByteOrder := by
  intro s a k
  refine ⟨fun hb => ?_, fun hb => ?_, fun _ _ => State.storeHalf_byteAt, fun _ _ => State.storeHalf_byteAt,
    fun _ _ => State.storeLong_byteAt, fun _ _ => State.storeLong_byteAt⟩
  · rw [State.halfAt, State.longAt, hb]; exact ⟨rfl, rfl⟩
  · rw [State.halfAt, State.longAt, hb]; exact ⟨rfl, rfl⟩

end Sys2Proof.Machine
end

section
/-! PROOFS. Where accesses stop the run and where their address error is taken: the fetch, the first access of an
instruction, its later ones, and those of an exception entry. -/

namespace Sys2Proof.Machine

/-! ### A failed access of an instruction (R406) -/

theorem raiseMem_of_none {s : State} (h : s.params.stackedPcAddressError = none) (e : MemErr) :
    raiseMem e s = .fault e.toFault := by
  unfold raiseMem
  rw [h]
  cases e <;> rfl

theorem raiseMem_absent (a : Word) (s : State) : raiseMem (.absent a) s = .fault (.absentAddress a) := rfl

theorem raiseMem_readOnly (a : Word) (s : State) : raiseMem (.readOnly a) s = .fault (.readOnlyWrite a) := rfl

section Shapes

variable {s w : State} {a : Word} {e : MemErr} {k : Nat}

theorem withLoadByte_fails {f : Byte → Result} (he : s.accessError .read 1 a = some e) :
    withLoad (s.loadByte k a) w f = raiseMem e w :=
  withLoad_error (State.loadByte_error_iff.2 he)

theorem withLoadHalf_fails {f : Half → Result} (he : s.accessError .read 2 a = some e) :
    withLoad (s.loadHalf k a) w f = raiseMem e w :=
  withLoad_error (State.loadHalf_error_iff.2 he)

theorem withLoadLong_fails {f : Word → Result} (he : s.accessError .read 4 a = some e) :
    withLoad (s.loadLong k a) w f = raiseMem e w :=
  withLoad_error (State.loadLong_error_iff.2 he)

theorem withStoreByte_fails {v : Byte} {f : State → Result} (he : s.accessError .write 1 a = some e) :
    withStore (s.storeByte a v) w f = raiseMem e w :=
  withStore_error (State.storeByte_error_iff.2 he)

theorem withStoreHalf_fails {v : Half} {f : State → Result} (he : s.accessError .write 2 a = some e) :
    withStore (s.storeHalf a v) w f = raiseMem e w :=
  withStore_error (State.storeHalf_error_iff.2 he)

theorem withStoreLong_fails {v : Word} {f : State → Result} (he : s.accessError .write 4 a = some e) :
    withStore (s.storeLong a v) w f = raiseMem e w :=
  withStore_error (State.storeLong_error_iff.2 he)

end Shapes

/-! ### The fetch -/

theorem step_of_running {s : State} (hn : s.NothingAccepted) (hr : s.proc = .run) :
    step s = runInstr exec s.beginStep :=
  (step_of_nothingAccepted hn).trans (sleepOrRun_of_run hr)

theorem runInstr_of_fetchError {s : State} {e : MemErr} (he : s.accessError .fetch 2 s.pc = some e) :
    runInstr exec s = raiseMem e s := by
  rw [runInstr, he]

theorem runInstr_of_staleCode {s : State} (hr : s.Readable 2 s.pc) (hc : s.staleCode = true) :
    runInstr exec s = .refused (.storedCode s.pc) := by
  rw [runInstr, (s.accessError_fetch 2 s.pc).2 hr]
  exact if_pos hc

theorem step_of_fetchError {s : State} {e : MemErr} (hn : s.NothingAccepted) (hr : s.proc = .run)
    (he : s.accessError .fetch 2 s.pc = some e) : step s = raiseMem e s.beginStep :=
  (step_of_running hn hr).trans (runInstr_of_fetchError (s := s.beginStep) he)

/-! ### The first access -/

/-- A first access that fails raises its error. -/
theorem exec_of_firstAccess_error {i : Instr} {s : State} {kind : AccessKind} {width : Nat} {a : Word} {e : MemErr}
    (h : firstAccess i s = some (kind, width, a)) (hf : i.usesFpu = true → s.fpuStopped = false)
    (hp : i.rewritesPc = false) (he : s.accessError kind width a = some e) : exec i s = raiseMem e s := by
  cases i with
  | movBLoad | movBLoadInc | movBLoadDisp | movBLoadIdx | movBLoadGbr | andB | orB | xorB | tstB | tasB =>
    cases h; exact withLoadByte_fails he
  | movWPcRel | movWLoad | movWLoadInc | movWLoadDisp | movWLoadIdx | movWLoadGbr | macW =>
    cases h; exact withLoadHalf_fails he
  | movLPcRel | movLLoad | movLLoadInc | movLLoadDisp | movLLoadIdx | movLLoadGbr | macL | ldcLSr | ldcLGbr | ldcLVbr
  | ldsLMach | ldsLMacl | ldsLPr =>
    cases h; exact withLoadLong_fails he
  | movBStore | movBStoreDec | movBStoreDisp | movBStoreIdx | movBStoreGbr => cases h; exact withStoreByte_fails he
  | movWStore | movWStoreDec | movWStoreDisp | movWStoreIdx | movWStoreGbr => cases h; exact withStoreHalf_fails he
  | movLStore | movLStoreDec | movLStoreDisp | movLStoreIdx | movLStoreGbr | stcLSr | stcLGbr | stcLVbr | stsLMach
  | stsLMacl | stsLPr =>
    cases h; exact withStoreLong_fails he
  | fmovLoadIdx | fmovLoadInc | fmovLoad | ldsLFpscr | ldsLFpul =>
    cases h; exact (guardFpu_of_running _ (hf rfl)).trans (withLoadLong_fails he)
  | fmovStoreIdx | fmovStoreDec | fmovStore | stsLFpscr | stsLFpul =>
    cases h; exact (guardFpu_of_running _ (hf rfl)).trans (withStoreLong_fails he)
  | rte | trapa => cases hp
  | _ => cases h

/-- RTE and TRAPA are the instructions that both access data and rewrite PC; a failed access of theirs faults the run
in any case (R413). -/
theorem exec_of_firstAccess_error_rewritesPc {i : Instr} {s : State} {kind : AccessKind} {width : Nat} {a : Word}
    {e : MemErr} (h : firstAccess i s = some (kind, width, a)) (hs : s.slot = .none) (hp : i.rewritesPc = true)
    (he : s.accessError kind width a = some e) : exec i s = .fault e.toFault := by
  cases i with
  | rte =>
    cases h
    refine (guardSlot_of_none _ hs).trans ?_
    rw [returnFromException, State.loadLong_error_iff.2 he]
  | trapa => cases h; exact (guardSlot_of_none _ hs).trans (enterException_of_firstError he)
  | bf | bfS | bt | btS | bra | braf | bsr | bsrf | jmp | jsr | rts => cases h
  | _ => cases hp

/-- A first access that fails faults the run where its instruction rewrites PC or its error is not taken. -/
theorem exec_faults_of_firstAccess_error {i : Instr} {s : State} {kind : AccessKind} {width : Nat} {a : Word}
    {e : MemErr} (h : firstAccess i s = some (kind, width, a)) (hf : i.usesFpu = true → s.fpuStopped = false)
    (hs : i.rewritesPc = true → s.slot = .none) (he : s.accessError kind width a = some e)
    (hx : raiseMem e s = .fault e.toFault ∨ i.rewritesPc = true) : exec i s = .fault e.toFault := by
  by_cases hp : i.rewritesPc = true
  · exact exec_of_firstAccess_error_rewritesPc h (hs hp) hp he
  · exact (exec_of_firstAccess_error h hf (Bool.eq_false_iff.2 hp) he).trans (hx.resolve_right hp)

/-! ### The second read of MAC.L and MAC.W (R178, R179) -/

/-- Rn has advanced over the first operand or has not. -/
theorem State.afterFirstMacRead_eq (s : State) (n : RegNum) (size : Word) :
    s.afterFirstMacRead n size = s ∨ s.afterFirstMacRead n size = s.setReg n (s.reg n + size) := by
  unfold State.afterFirstMacRead
  split
  · exact .inr rfl
  · exact .inl rfl

/-- The second operand is read through Rm, which the first read has advanced where Rm is Rn. -/
theorem exec_mac_of_secondError {i : Instr} {s : State} {m n : RegNum} {width : Nat} {q : Word} {e : MemErr}
    (hi : i = .macL m n ∧ width = 4 ∨ i = .macW m n ∧ width = 2) (hr : s.Readable width (s.reg n))
    (hq : q = if m = n then s.reg n + BitVec.ofNat 32 width else s.reg m)
    (he : s.accessError .read width q = some e) :
    exec i s = raiseMem e (s.afterFirstMacRead n (BitVec.ofNat 32 width)) := by
  rw [← State.reg_setReg] at hq
  subst hq
  rcases hi with ⟨rfl, rfl⟩ | ⟨rfl, rfl⟩
  · show withLoad (s.loadLong 1 (s.reg n)) s _ = _
    rw [State.loadLong_of_readable hr]
    exact withLoadLong_fails he
  · show withLoad (s.loadHalf 1 (s.reg n)) s _ = _
    rw [State.loadHalf_of_readable hr]
    exact withLoadHalf_fails he

/-- The address error of the second read, taken with Rn advanced or not. -/
theorem raiseMem_took_afterFirstMacRead {s : State} {n : RegNum} {width : Nat} {q : Word} {plain : StackedPcPlain}
    {slot : StackedPcSlot} (hp : s.params.stackedPcAddressError = some (plain, slot)) (hm : s.mem.wf = true)
    (h : s.EntryReady s.params.vecAddressError)
    (h' : (s.setReg n (s.reg n + BitVec.ofNat 32 width)).EntryReady s.params.vecAddressError) :
    ∃ t, raiseMem (.misaligned q .read width) (s.afterFirstMacRead n (BitVec.ofNat 32 width)) = .next t ∧
      (TookAddressError q .read width plain slot s t ∨
        TookAddressError q .read width plain slot (s.setReg n (s.reg n + BitVec.ofNat 32 width)) t) := by
  rcases s.afterFirstMacRead_eq n (BitVec.ofNat 32 width) with hs | hs
  · rw [hs]
    exact (raiseMem_took hp hm h).imp fun _ => And.imp_right .inl
  · rw [hs]
    exact (raiseMem_took (s := s.setReg n (s.reg n + BitVec.ofNat 32 width)) hp hm h').imp fun _ => And.imp_right .inr

/-! ### The write of the read-modify-write instructions (R201, R209) -/

/-- A byte of faulting ROM can be read, and the write to it faults. -/
theorem readThenWrite_of_romFault {s : State} {a : Word} {f : Byte → Byte} {g : Byte → State → Result}
    (h : s.kindAt a = .romFault) :
    (withLoad (s.loadByte 1 a) s fun b => withStore (s.storeByte a (f b)) s (g b)) = .fault (.readOnlyWrite a) := by
  have hk : s.kindAt (a + BitVec.ofNat 32 0) = .romFault := by simpa using h
  have hr : s.Readable 1 a := by
    refine ⟨Nat.mod_one _, fun i hi => ?_⟩
    obtain rfl := Nat.lt_one_iff.1 hi
    rw [hk]
    decide
  rw [State.loadByte_of_readable hr, withLoad_ok,
    withStoreByte_fails (State.accessError_of_romFault hr ⟨0, Nat.one_pos, hk⟩), raiseMem_readOnly]

/-! ### The second read of RTE (R288) -/

theorem exec_rte_of_secondError {s : State} {e : MemErr} (hs : s.slot = .none) (hr : s.Readable 4 (s.reg spNum))
    (he : s.accessError .read 4 (s.reg spNum + 4) = some e) : exec .rte s = .fault e.toFault := by
  refine (guardSlot_of_none _ hs).trans ?_
  rw [returnFromException, State.loadLong_of_readable hr]
  simp only [State.loadLong_error_iff.2 he]

theorem add_four_mod_four {a : Word} (h : a.toNat % 4 = 0) : (a + 4).toNat % 4 = 0 := by bv_omega

/-! ### The accesses of an exception entry (R410, R412, R413) -/

theorem sub_four_mod_four (a : Word) : (a - 4).toNat % 4 = a.toNat % 4 := by bv_omega

/-- A vector lies on a longword boundary exactly where VBR does. -/
theorem State.vectorAddr_mod_four (s : State) (vector : BitVec 8) :
    (s.vectorAddr vector).toNat % 4 = s.vbr.toNat % 4 := by
  have hfour : (4 : Word).toNat = 4 := rfl
  rw [State.vectorAddr, BitVec.toNat_add, BitVec.toNat_mul, hfour]
  omega

/-- A push that fails faults the run: the first, or the second after it. -/
theorem enterException_of_pushError {s : State} {vector : BitVec 8} {stackedPc a : Word} {level : Option (BitVec 4)}
    {e : MemErr} (ha : a = s.reg spNum - 4 ∨ a = s.reg spNum - 8 ∧ s.Writable 4 (s.reg spNum - 4))
    (he : s.accessError .write 4 a = some e) : enterException vector stackedPc level s = .fault e.toFault := by
  rcases ha with rfl | ⟨rfl, hw⟩
  · exact enterException_of_firstError he
  · exact enterException_of_secondError hw he

/-- Both pushes are as aligned as R15. -/
theorem push_mod_four {s : State} {a : Word}
    (ha : a = s.reg spNum - 4 ∨ a = s.reg spNum - 8 ∧ s.Writable 4 (s.reg spNum - 4))
    (h : (s.reg spNum).toNat % 4 = 0) : a.toNat % 4 = 0 := by
  rcases ha with rfl | ⟨rfl, -⟩ <;> bv_omega

/-! ### The statement -/

/-- Settles O26: at each place the access fails with the error that its alignment or the map gives it, and that error is
raised as an address error or faults the run. -/
theorem accessStops : Obligations.AccessStops := by
  refine ⟨fun s hn hrun => ⟨fun hodd hnone => ?_, fun plain slot hodd hsome hm hready => ?_,
      fun heven habsent => ?_, fun hr hstale => ?_⟩,
    fun i s kind width a h hf hs => ⟨fun hmis hx => ?_, fun plain slot hmis hsome hp hm hready => ?_,
      fun hal habsent => ?_, fun hk hr hrom => ?_⟩,
    fun i s m n width q hi hr hq => ⟨fun hmis hnone => ?_, fun plain slot hmis hsome hm hready hready' => ?_,
      fun hal habsent => ?_⟩,
    fun i s imm n a hi hrom => ?_, fun s hs hr habsent => ?_, fun s vector r hr => ?_⟩
  -- the fetch
  · rw [step_of_fetchError hn hrun (State.accessError_half_iff.2 hodd)]
    exact raiseMem_of_none (s := s.beginStep) hnone _
  · rw [step_of_fetchError hn hrun (State.accessError_half_iff.2 hodd)]
    exact raiseMem_took (s := s.beginStep) hsome hm (hready.congr rfl rfl rfl)
  · have hal : s.pc.toNat % 2 = 0 := not_not.1 (mt (odd_iff_getLsbD_zero s.pc).1 (Bool.eq_false_iff.1 heven))
    rw [step_of_fetchError hn hrun (State.accessError_of_absent hal habsent), raiseMem_absent]
  · rw [step_of_running hn hrun]
    exact runInstr_of_staleCode (s := s.beginStep) hr hstale
  -- the first access of an instruction
  · exact exec_faults_of_firstAccess_error h hf hs (State.accessError_of_misaligned hmis)
      (hx.imp_left fun hnone => raiseMem_of_none hnone _)
  · rw [exec_of_firstAccess_error h hf hp (State.accessError_of_misaligned hmis)]
    exact raiseMem_took hsome hm hready
  · exact exec_faults_of_firstAccess_error h hf hs (State.accessError_of_absent hal habsent) (.inl rfl)
  · subst hk
    exact exec_faults_of_firstAccess_error h hf hs (State.accessError_of_romFault hr hrom) (.inl rfl)
  -- the second read of MAC.L and MAC.W
  · rw [exec_mac_of_secondError hi hr hq (State.accessError_of_misaligned hmis)]
    exact raiseMem_of_none (by rwa [State.afterFirstMacRead_params]) _
  · rw [exec_mac_of_secondError hi hr hq (State.accessError_of_misaligned hmis)]
    exact raiseMem_took_afterFirstMacRead hsome hm hready hready'
  · rw [exec_mac_of_secondError hi hr hq (State.accessError_of_absent hal habsent), raiseMem_absent]
  -- the write of AND.B, OR.B, XOR.B and TAS.B
  · rcases hi with ⟨rfl | rfl | rfl, rfl⟩ | ⟨rfl, rfl⟩ <;> exact readThenWrite_of_romFault hrom
  -- the second read of RTE
  · exact exec_rte_of_secondError hs hr (State.accessError_of_absent (add_four_mod_four hr.1) habsent)
  -- the accesses of an entry
  · obtain ⟨pc, level, rfl⟩ : ∃ pc level, r = enterException vector pc level s := by
      rcases hr with ⟨rfl, hs⟩ | hr
      · exact ⟨s.pc + 2, none, guardSlot_of_none _ hs⟩
      · exact hr
    refine ⟨fun hmis => ?_, fun a ha hal => ⟨fun habsent => ?_, fun hr hrom => ?_⟩,
      fun hw1 hw2 => ⟨fun hmis => ?_, fun hal habsent => ?_⟩⟩
    · rw [← sub_four_mod_four] at hmis
      exact enterException_of_firstError (State.accessError_of_misaligned hmis)
    · exact enterException_of_pushError ha (State.accessError_of_absent (push_mod_four ha hal) habsent)
    · exact enterException_of_pushError ha (State.accessError_of_romFault hr hrom)
    · rw [← s.vectorAddr_mod_four vector] at hmis
      exact enterException_of_vectorError hw1 hw2 (State.accessError_of_misaligned hmis)
    · rw [← s.vectorAddr_mod_four vector] at hal
      exact enterException_of_vectorError hw1 hw2 (State.accessError_of_absent hal habsent)

end Sys2Proof.Machine
end

section
/-! PROOFS. The decoder and the encoder are inverse to each other (30_encoding): each is followed through the four
nibbles of a code, once along the instructions by their formats and once along the branches of the decoder; then both
are compared with the opcode table, by the shape of a row's mask. -/

namespace Sys2Proof

/-! ### The nibbles and the bytes of a code -/

theorem byte_append_nibbles (m d : BitVec 4) : (m ++ d).extractLsb' 4 4 = m ∧ (m ++ d).extractLsb' 0 4 = d := by
  constructor <;>
  · apply BitVec.eq_of_getLsbD_eq
    intro i hi
    simp only [BitVec.getLsbD_extractLsb', BitVec.getLsbD_append]
    grind

theorem disp12_append_nibbles (n m d : BitVec 4) :
    (n ++ m ++ d).extractLsb' 8 4 = n ∧ (n ++ m ++ d).extractLsb' 4 4 = m ∧ (n ++ m ++ d).extractLsb' 0 4 = d := by
  refine ⟨?_, ?_, ?_⟩ <;>
  · apply BitVec.eq_of_getLsbD_eq
    intro i hi
    simp only [BitVec.getLsbD_extractLsb', BitVec.getLsbD_append]
    grind

/-- The code of a byte field made of two nibbles. -/
theorem nibblesByte_append (a n m d : BitVec 4) : nibblesByte a n (m ++ d) = nibbles a n m d := by
  obtain ⟨hm, hd⟩ := byte_append_nibbles m d
  rw [nibblesByte, hm, hd]

/-- The code of a 12-bit field made of three nibbles. -/
theorem nibbleDisp12_append (a n m d : BitVec 4) : nibbleDisp12 a (n ++ m ++ d) = nibbles a n m d := by
  obtain ⟨hn, hm, hd⟩ := disp12_append_nibbles n m d
  rw [nibbleDisp12, hn, hm, hd]

/-- `bytesOfCode` and `codeOfBytes` lay out a code as memory lays out a word, so they are inverse to each other. -/
theorem codeOfBytes_byteOf16 (bigEndian : Bool) (w : Half) :
    codeOfBytes bigEndian (Machine.byteOf16 bigEndian w 0) (Machine.byteOf16 bigEndian w 1) = w :=
  Machine.join16_byteOf16 bigEndian w

theorem bytesOfCode_eq (bigEndian : Bool) (w : Half) :
    bytesOfCode bigEndian w = [Machine.byteOf16 bigEndian w 0, Machine.byteOf16 bigEndian w 1] := by
  cases bigEndian <;> rfl

/-- The two bytes of a code, in the order of R52, decode as the code does and leave what is behind them. -/
theorem decodeBytes_bytesOfCode {w : Half} {i : Instr} (bigEndian : Bool) (rest : List Byte)
    (h : decode w = .ok i) : decodeBytes bigEndian (bytesOfCode bigEndian w ++ rest) = .ok (i, rest) := by
  simp only [bytesOfCode_eq, List.cons_append, List.nil_append, decodeBytes, codeOfBytes_byteOf16, h]

/-! ### From the instruction to its code and back -/

theorem decode_nibbles {a n m d : BitVec 4} {i : Instr} (h : decodeNibbles a n m d = some i) :
    decode (nibbles a n m d) = .ok i := by
  simp only [decode, nibbles_extract_12, nibbles_extract_8, nibbles_extract_4, nibbles_extract_0, h]

/-- A row with a byte field (formats d, nd8, i, ni) reads the field back from its two nibbles. -/
theorem decode_nibblesByte {a n : BitVec 4} {b : BitVec 8} {i : Instr}
    (h : ∀ m d, m ++ d = b → decodeNibbles a n m d = some i) : decode (nibblesByte a n b) = .ok i :=
  decode_nibbles (h _ _ (byte_eq_nibbles b))

/-- A row with a 12-bit field (format d12) reads the field back from its three nibbles. -/
theorem decode_nibbleDisp12 {a : BitVec 4} {b : BitVec 12} {i : Instr}
    (h : ∀ n m d, n ++ m ++ d = b → decodeNibbles a n m d = some i) : decode (nibbleDisp12 a b) = .ok i :=
  decode_nibbles (h _ _ _ (disp12_eq_nibbles b))

/-- Each row of the opcode table is read back from its code: by its field's nibbles where it has a byte or 12-bit field,
else nibble for nibble. -/
theorem decode_encode (i : Instr) : decode (encode i) = .ok i := by
  cases i with
  | movImm | movWPcRel | movLPcRel | movBStoreGbr | movWStoreGbr | movLStoreGbr | movBLoadGbr | movWLoadGbr
  | movLLoadGbr | mova | addImm | cmpEqImm | andImm | andB | orImm | orB | tstImm | tstB | xorImm | xorB | bf | bfS
  | bt | btS | trapa =>
    exact decode_nibblesByte fun _ _ h => h ▸ rfl
  | bra | bsr => exact decode_nibbleDisp12 fun _ _ _ h => h ▸ rfl
  | _ => exact decode_nibbles rfl

/-- Settles O1: the code by `decode_encode`, and its bytes because they are the code again in either order. -/
theorem encodingRoundTrip : Obligations.EncodingRoundTrip :=
  fun i bigEndian rest => ⟨decode_encode i, decodeBytes_bytesOfCode bigEndian rest (decode_encode i)⟩

/-! ### From the code to its instruction and back

For each function of the decoder: the instruction that a branch answers has the branch's nibbles as its code. -/

section Branches

variable {a n m d : BitVec 4} {i : Instr}

theorem encode_of_decode0 : decode0 n m d = some i → encode i = nibbles 0x0 n m d := by
  fun_cases decode0 n m d <;> rintro ⟨⟩ <;> subst_vars <;> rfl

theorem encode_of_decode2 : decode2 n m d = some i → encode i = nibbles 0x2 n m d := by
  fun_cases decode2 n m d <;> rintro ⟨⟩ <;> rfl

theorem encode_of_decode3 : decode3 n m d = some i → encode i = nibbles 0x3 n m d := by
  fun_cases decode3 n m d <;> rintro ⟨⟩ <;> rfl

theorem encode_of_decode4 : decode4 n m d = some i → encode i = nibbles 0x4 n m d := by
  fun_cases decode4 n m d <;> rintro ⟨⟩ <;> rfl

theorem encode_of_decode6 : decode6 n m d = some i → encode i = nibbles 0x6 n m d := by
  fun_cases decode6 n m d <;> rintro ⟨⟩ <;> rfl

/-- Cases 1 to 4 have a nibble displacement, the others a byte field. -/
theorem encode_of_decode8 : decode8 n m d = some i → encode i = nibbles 0x8 n m d := by
  fun_cases decode8 n m d <;> rintro ⟨⟩
  case case1 | case2 | case3 | case4 => rfl
  all_goals exact nibblesByte_append _ _ _ _

/-- Every row has a byte field; the last branch is what is left for bits 11-8. -/
theorem encode_of_decodeC : decodeC n m d = some i → encode i = nibbles 0xC n m d := by
  fun_cases decodeC n m d <;> rintro ⟨⟩
  case case16 =>
    have hn : n = 0xF := by revert n; decide
    subst hn
    exact nibblesByte_append _ _ _ _
  all_goals exact nibblesByte_append _ _ _ _

theorem encode_of_decodeF : decodeF n m d = some i → encode i = nibbles 0xF n m d := by
  fun_cases decodeF n m d <;> rintro ⟨⟩ <;> rfl

/-- Every branch of the decoder answers an instruction whose code the four nibbles are.  Case `k + 1` is the value `k`
of bits 15-12. -/
theorem encode_of_decodeNibbles : decodeNibbles a n m d = some i → encode i = nibbles a n m d := by
  fun_cases decodeNibbles a n m d
  case case1 => exact encode_of_decode0
  case case3 => exact encode_of_decode2
  case case4 => exact encode_of_decode3
  case case5 => exact encode_of_decode4
  case case7 => exact encode_of_decode6
  case case9 => exact encode_of_decode8
  case case13 => exact encode_of_decodeC
  case case16 =>
    have ha : a = 0xF := by revert a; decide
    exact ha ▸ encode_of_decodeF
  all_goals rintro ⟨⟩
  case case2 | case6 => rfl
  case case11 | case12 => exact nibbleDisp12_append _ _ _ _
  all_goals exact nibblesByte_append _ _ _ _

theorem decodeNibbles_of_decode {w : Half} (h : decode w = .ok i) :
    decodeNibbles (w.extractLsb' 12 4) (w.extractLsb' 8 4) (w.extractLsb' 4 4) (w.extractLsb' 0 4) = some i := by
  unfold decode at h
  split at h <;> cases h
  assumption

end Branches

/-- Settles O2: the nibbles of the code are those of the instruction that the branch of the decoder answers. -/
theorem decodeIsUnambiguous : Obligations.DecodeIsUnambiguous :=
  fun w _ h => (encode_of_decodeNibbles (decodeNibbles_of_decode h)).trans (half_eq_nibbles w)

/-! ### The rows of the opcode table -/

theorem nibbles_inj {a n m d a' n' m' d' : BitVec 4} (h : nibbles a n m d = nibbles a' n' m' d') :
    a = a' ∧ n = n' ∧ m = m' ∧ d = d' :=
  ⟨by simpa using congrArg (·.extractLsb' 12 4) h, by simpa using congrArg (·.extractLsb' 8 4) h,
    by simpa using congrArg (·.extractLsb' 4 4) h, by simpa using congrArg (·.extractLsb' 0 4) h⟩

/-- The mask and match columns of an instruction's row. -/
def Instr.row (i : Instr) : Half × Half := (i.tableMask, i.tableMatch)

/-- Encoder and decoder follow an instruction's row: its code carries the row's fixed bits, and four nibbles that carry
them decode to an instruction of the row. -/
def FollowsRow (i : Instr) : Prop :=
  encode i &&& i.tableMask = i.tableMatch ∧
  ∀ a n m d, nibbles a n m d &&& i.tableMask = i.tableMatch → (decodeNibbles a n m d).map Instr.row = some i.row

section Rows

variable {i : Instr} {a n m d : BitVec 4}

/-- A row whose first nibble is fixed (formats nd8, ni, d12, nmd). -/
theorem followsRow_first (he : encode i = nibbles a n m d) (hmask : i.tableMask = 0xF000)
    (hmatch : i.tableMatch = nibbles a 0 0 0) (hd : ∀ n m d, (decodeNibbles a n m d).map Instr.row = some i.row) :
    FollowsRow i := by
  rw [FollowsRow, he, hmask, hmatch]
  refine ⟨mask_first _ _ _ _, fun a₁ n₁ m₁ d₁ h => ?_⟩
  obtain ⟨rfl, -⟩ := nibbles_inj ((mask_first a₁ n₁ m₁ d₁).symm.trans h)
  exact hd n₁ m₁ d₁

/-- A row whose first two nibbles are fixed (formats d, i, nd4, md). -/
theorem followsRow_first_two (he : encode i = nibbles a n m d) (hmask : i.tableMask = 0xFF00)
    (hmatch : i.tableMatch = nibbles a n 0 0) (hd : ∀ m d, (decodeNibbles a n m d).map Instr.row = some i.row) :
    FollowsRow i := by
  rw [FollowsRow, he, hmask, hmatch]
  refine ⟨mask_first_two _ _ _ _, fun a₁ n₁ m₁ d₁ h => ?_⟩
  obtain ⟨rfl, rfl, -⟩ := nibbles_inj ((mask_first_two a₁ n₁ m₁ d₁).symm.trans h)
  exact hd m₁ d₁

/-- A row whose first and last nibble are fixed (format nm). -/
theorem followsRow_first_last (he : encode i = nibbles a n m d) (hmask : i.tableMask = 0xF00F)
    (hmatch : i.tableMatch = nibbles a 0 0 d) (hd : ∀ n m, (decodeNibbles a n m d).map Instr.row = some i.row) :
    FollowsRow i := by
  rw [FollowsRow, he, hmask, hmatch]
  refine ⟨mask_first_last _ _ _ _, fun a₁ n₁ m₁ d₁ h => ?_⟩
  obtain ⟨rfl, -, -, rfl⟩ := nibbles_inj ((mask_first_last a₁ n₁ m₁ d₁).symm.trans h)
  exact hd n₁ m₁

/-- A row with one register field in its second nibble (formats n and m). -/
theorem followsRow_all_but_second (he : encode i = nibbles a n m d) (hmask : i.tableMask = 0xF0FF)
    (hmatch : i.tableMatch = nibbles a 0 m d) (hd : ∀ n, (decodeNibbles a n m d).map Instr.row = some i.row) :
    FollowsRow i := by
  rw [FollowsRow, he, hmask, hmatch]
  refine ⟨mask_all_but_second _ _ _ _, fun a₁ n₁ m₁ d₁ h => ?_⟩
  obtain ⟨rfl, -, rfl, rfl⟩ := nibbles_inj ((mask_all_but_second a₁ n₁ m₁ d₁).symm.trans h)
  exact hd n₁

/-- A row without operands (format 0). -/
theorem followsRow_all (he : encode i = nibbles a n m d) (hmask : i.tableMask = 0xFFFF)
    (hmatch : i.tableMatch = nibbles a n m d) (hd : (decodeNibbles a n m d).map Instr.row = some i.row) :
    FollowsRow i := by
  rw [FollowsRow, he, hmask, hmatch]
  refine ⟨BitVec.and_allOnes, fun a₁ n₁ m₁ d₁ h => ?_⟩
  obtain ⟨rfl, rfl, rfl, rfl⟩ := nibbles_inj (BitVec.and_allOnes.symm.trans h)
  exact hd

end Rows

/-- Every instruction follows its row, whose mask has one of five shapes. -/
theorem followsRow (i : Instr) : FollowsRow i := by
  cases i with
  | movImm | movWPcRel | movLPcRel | movLStoreDisp | movLLoadDisp | addImm | bra | bsr =>
    exact followsRow_first rfl rfl rfl fun _ _ _ => rfl
  | movBStoreDisp | movWStoreDisp | movBLoadDisp | movWLoadDisp | movBStoreGbr | movWStoreGbr | movLStoreGbr
  | movBLoadGbr | movWLoadGbr | movLLoadGbr | mova | cmpEqImm | andImm | andB | orImm | orB | tstImm | tstB | xorImm
  | xorB | bf | bfS | bt | btS | trapa =>
    exact followsRow_first_two rfl rfl rfl fun _ _ => rfl
  | movt | cmpPl | cmpPz | dt | tasB | rotl | rotr | rotcl | rotcr | shal | shar | shll | shlr | shll2 | shlr2
  | shll8 | shlr8 | shll16 | shlr16 | braf | bsrf | jmp | jsr | ldcSr | ldcGbr | ldcVbr | ldcLSr | ldcLGbr | ldcLVbr
  | ldsMach | ldsMacl | ldsPr | ldsLMach | ldsLMacl | ldsLPr | stcSr | stcGbr | stcVbr | stcLSr | stcLGbr | stcLVbr
  | stsMach | stsMacl | stsPr | stsLMach | stsLMacl | stsLPr | fabs | fldi0 | fldi1 | flds | float | fneg | fsts
  | ftrc | ldsFpscr | ldsFpul | ldsLFpscr | ldsLFpul | stsFpscr | stsFpul | stsLFpscr | stsLFpul =>
    exact followsRow_all_but_second rfl rfl rfl fun _ => rfl
  | div0u | rts | clrt | clrmac | nop | rte | sett | sleep => exact followsRow_all rfl rfl rfl rfl
  | _ => exact followsRow_first_last rfl rfl rfl fun _ _ => rfl

/-- A code that decodes carries the fixed bits of its instruction's row. -/
theorem and_tableMask_of_decode {w : Half} {i : Instr} (h : decode w = .ok i) : w &&& i.tableMask = i.tableMatch :=
  decodeIsUnambiguous w i h ▸ (followsRow i).1

/-- A code that carries the fixed bits of a row decodes to an instruction of that row. -/
theorem decode_of_and_tableMask {w : Half} {i : Instr} (h : w &&& i.tableMask = i.tableMatch) :
    ∃ j, decode w = .ok j ∧ j.tableMask = i.tableMask ∧ j.tableMatch = i.tableMatch := by
  rw [← half_eq_nibbles w] at h ⊢
  obtain ⟨j, hj, hrow⟩ := Option.map_eq_some_iff.1 ((followsRow i).2 _ _ _ _ h)
  obtain ⟨hmask, hmatch⟩ := Prod.mk.inj hrow
  exact ⟨j, decode_nibbles hj, hmask, hmatch⟩

/-- Settles O3: a code that decodes is the code of its instruction, which carries the row's fixed bits; and a row's
fixed bits lead the decoder to that row. -/
theorem decodeFollowsTable : Obligations.DecodeFollowsTable :=
  fun _ _ => ⟨and_tableMask_of_decode, decode_of_and_tableMask⟩

end Sys2Proof
end

section
/-! PROOFS. Illegal instructions (R404, R405, 60_exceptions): the exception a step or an instruction raises, outside a
delay slot and in one, and who raises it: an unassigned code, an instruction that rewrites PC in a slot, and an
instruction that needs the FPU while it is stopped. -/

namespace Sys2Proof.Machine

/-! ### Taking the illegal instruction exceptions -/

/-- The general illegal instruction exception (R404). -/
theorem raiseIllegal_took_of_none {s : State} (hs : s.slot = .none) (hm : s.mem.wf = true)
    (he : s.EntryReady s.params.vecIllegal) :
    ∃ t, raiseIllegal s = .next t ∧
      TookException s.params.vecIllegal (s.plainStackedPc s.params.stackedPcIllegal) s.sr s t := by
  rw [raiseIllegal, if_pos hs, State.stackedPc, hs]
  exact enterException_took (level := none) hm he

/-- Where control goes after a slot: the target of the pending branch, or after an untaken one the next instruction
(assumption 23). -/
theorem State.stackedPc_of_slot {s : State} {target : Word} (plain : StackedPcPlain) (slot : StackedPcSlot)
    (hs : s.slot = .pending target ∨ s.slot = .untaken ∧ target = s.pc + 2) :
    s.stackedPc plain slot = s.slotStackedPc slot target := by
  rcases hs with hs | ⟨hs, rfl⟩ <;> rw [State.stackedPc, hs]

theorem State.slot_ne_none {s : State} {target : Word}
    (hs : s.slot = .pending target ∨ s.slot = .untaken ∧ target = s.pc + 2) : s.slot ≠ .none := by
  rcases hs with hs | ⟨hs, -⟩ <;> rw [hs] <;> nofun

/-- The slot illegal instruction exception (R405). -/
theorem raiseIllegal_took_of_slot {s : State} {target : Word}
    (hs : s.slot = .pending target ∨ s.slot = .untaken ∧ target = s.pc + 2) (hm : s.mem.wf = true)
    (he : s.EntryReady s.params.vecSlotIllegal) :
    ∃ t, raiseIllegal s = .next t ∧
      TookException s.params.vecSlotIllegal (s.slotStackedPc s.params.stackedPcSlotIllegal target) s.sr s t := by
  rw [raiseIllegal, if_neg (State.slot_ne_none hs), State.stackedPc_of_slot _ _ hs]
  exact enterException_took (level := none) hm he

/-! ### Unassigned codes (R90) -/

/-- A code that decodes to no instruction raises an illegal instruction exception. -/
theorem step_of_unassigned {s : State} (hn : s.NothingAccepted) (hr : s.proc = .run) (hp : s.Readable 2 s.pc)
    (hc : s.staleCode = false) (hd : ∀ i, decode (s.beginStep.halfAt 0 s.pc) ≠ .ok i) :
    step s = raiseIllegal s.beginStep := by
  rw [step_of_running hn hr, runInstr_of_readable (s := s.beginStep) hp hc]
  split
  · rename_i i hi
    exact absurd hi (hd i)
  · rfl

/-- Settles O6: an unassigned code raises the exception of its slot, in a state that differs from the old one only in
its inputs and its counter. -/
theorem unassignedCodesAreIllegal : Obligations.UnassignedCodesAreIllegal := by
  intro s hn hr hp hc hd hm
  rw [step_of_unassigned hn hr hp hc hd]
  exact ⟨fun hs he => raiseIllegal_took_of_none (s := s.beginStep) hs hm (he.congr rfl rfl rfl),
    fun _ hs he => raiseIllegal_took_of_slot (s := s.beginStep) hs hm (he.congr rfl rfl rfl)⟩

/-! ### Instructions that are illegal where they stand -/

/-- An instruction that rewrites PC is illegal in a delay slot (R243, 44_branch). -/
theorem exec_of_rewritesPc_in_slot {i : Instr} {s : State} (hi : i.rewritesPc = true) (hs : s.slot ≠ .none) :
    exec i s = raiseIllegal s := by
  cases i with
  | bf | bfS | bt | btS | bra | bsr | braf | bsrf | jmp | jsr | rts | rte | trapa => exact guardSlot_of_ne_none _ hs
  | _ => cases hi

/-- An instruction that needs the FPU is illegal while the FPU is stopped (R91, 30_encoding). -/
theorem exec_of_usesFpu_stopped {i : Instr} {s : State} (hi : i.usesFpu = true) (hs : s.fpuStopped = true) :
    exec i s = raiseIllegal s := by
  cases i with
  | fabs | fadd | fcmpEq | fcmpGt | fdiv | fldi0 | fldi1 | flds | float | fmac | fmov | fmovLoadIdx | fmovLoadInc
  | fmovLoad | fmovStoreIdx | fmovStoreDec | fmovStore | fmul | fneg | fsts | fsub | ftrc | ldsFpscr | ldsFpul
  | ldsLFpscr | ldsLFpul | stsFpscr | stsFpul | stsLFpscr | stsLFpul => exact guardFpu_of_stopped _ hs
  | _ => cases hi

/-- Settles O7: the guards of both groups raise the exception of the slot they stand in. -/
theorem slotAndStoppedFpuIllegal : Obligations.SlotAndStoppedFpuIllegal := by
  intro i s hm
  refine ⟨fun target hs hi he => ?_, fun hs hu hf he => ?_⟩
  · have hx : exec i s = raiseIllegal s := by
      rcases hi with hi | ⟨hu, hf⟩
      · exact exec_of_rewritesPc_in_slot hi (State.slot_ne_none hs)
      · exact exec_of_usesFpu_stopped hu hf
    rw [hx]
    exact raiseIllegal_took_of_slot hs hm he
  · rw [exec_of_usesFpu_stopped hu hf]
    exact raiseIllegal_took_of_none hs hm he

end Sys2Proof.Machine
end

section
/-! PROOFS. Data transfer (40_data_transfer): when an instruction with one data access does as its shape says, the loads
and stores with and without an update of the pointer, the PC-relative forms, and the codes the spec prints. -/

namespace Sys2Proof.Machine

/-! ### Instructions with one data access -/

theorem completes_of_exec_eq {i : Instr} {s : State} {r : Result} {P : State → Prop} (hi : exec i s = r)
    (h : ∃ t, r = .next t ∧ P t) : Completes i s P := by
  rwa [Completes, hi]

section Accesses

variable {code : Half} {i : Instr} {s : State} {width : Nat} {a : Word} {P : State → Prop}

theorem means_of_encode (hc : encode i = code) (h : Completes i s P) : Means code i s P :=
  ⟨hc ▸ decode_encode i, h⟩

/-- An instruction that reads: it completes where the address is readable, and raises whatever error the read has. -/
theorem accesses_read (hc : encode i = code) (completes : s.Readable width a → Completes i s P)
    (fails : ∀ e, s.accessError .read width a = some e → exec i s = raiseMem e s) :
    Accesses code i .read width a s P where
  decoded := hc ▸ decode_encode i
  completes := completes
  raises hmis := fails _ (State.accessError_of_misaligned hmis)

/-- An instruction that writes: it completes where the address is writable, and raises whatever error the write has. -/
theorem accesses_write (hc : encode i = code) (completes : s.Writable width a → Completes i s P)
    (fails : ∀ e, s.accessError .write width a = some e → exec i s = raiseMem e s) :
    Accesses code i .write width a s P where
  decoded := hc ▸ decode_encode i
  completes := completes
  raises hmis := fails _ (State.accessError_of_misaligned hmis)

/-! A load continues with what is read at its address. -/

theorem loadByte_accesses {k : Byte → Result} (hc : encode i = code) (hi : exec i s = withLoad (s.loadByte 1 a) s k)
    (hk : ∃ t, k (s.byteAt 1 a) = .next t ∧ P t) : Accesses code i .read 1 a s P :=
  accesses_read hc (fun hr => completes_of_exec_eq (by rw [hi, State.loadByte_of_readable hr, withLoad_ok]) hk)
    fun _ he => hi.trans (withLoadByte_fails he)

theorem loadHalf_accesses {k : Half → Result} (hc : encode i = code) (hi : exec i s = withLoad (s.loadHalf 1 a) s k)
    (hk : ∃ t, k (s.halfAt 1 a) = .next t ∧ P t) : Accesses code i .read 2 a s P :=
  accesses_read hc (fun hr => completes_of_exec_eq (by rw [hi, State.loadHalf_of_readable hr, withLoad_ok]) hk)
    fun _ he => hi.trans (withLoadHalf_fails he)

theorem loadLong_accesses {k : Word → Result} (hc : encode i = code) (hi : exec i s = withLoad (s.loadLong 1 a) s k)
    (hk : ∃ t, k (s.longAt 1 a) = .next t ∧ P t) : Accesses code i .read 4 a s P :=
  accesses_read hc (fun hr => completes_of_exec_eq (by rw [hi, State.loadLong_of_readable hr, withLoad_ok]) hk)
    fun _ he => hi.trans (withLoadLong_fails he)

/-! A store continues with the state after it, from which its outcome follows where the address is writable. -/

theorem storeByte_accesses {v : Byte} {k : State → Result} (hc : encode i = code)
    (hi : exec i s = withStore (s.storeByte a v) s k)
    (hk : s.Writable 1 a → ∃ t, withStore (s.storeByte a v) s k = .next t ∧ P t) :
    Accesses code i .write 1 a s P :=
  accesses_write hc (fun hw => completes_of_exec_eq hi (hk hw)) fun _ he => hi.trans (withStoreByte_fails he)

theorem storeHalf_accesses {v : Half} {k : State → Result} (hc : encode i = code)
    (hi : exec i s = withStore (s.storeHalf a v) s k)
    (hk : s.Writable 2 a → ∃ t, withStore (s.storeHalf a v) s k = .next t ∧ P t) :
    Accesses code i .write 2 a s P :=
  accesses_write hc (fun hw => completes_of_exec_eq hi (hk hw)) fun _ he => hi.trans (withStoreHalf_fails he)

theorem storeLong_accesses {v : Word} {k : State → Result} (hc : encode i = code)
    (hi : exec i s = withStore (s.storeLong a v) s k)
    (hk : s.Writable 4 a → ∃ t, withStore (s.storeLong a v) s k = .next t ∧ P t) :
    Accesses code i .write 4 a s P :=
  accesses_write hc (fun hw => completes_of_exec_eq hi (hk hw)) fun _ he => hi.trans (withStoreLong_fails he)

end Accesses

/-! ### Register moves -/

/-- Settles O27: each of the six forms ends with one write of Rn. -/
theorem registerMoves : Obligations.RegisterMoves := fun s _ n _ =>
  ⟨means_of_encode rfl (finish_wroteReg n _ s), means_of_encode rfl (finish_wroteReg n _ s),
    means_of_encode rfl (finish_wroteReg n _ s), means_of_encode rfl (finish_wroteReg n _ s),
    means_of_encode rfl (finish_wroteReg n _ s), means_of_encode rfl (finish_wroteReg n _ s)⟩

/-! ### Loads and stores without address update -/

/-- Settles O29: the twelve loads differ in their width, their address and their destination. -/
theorem loads : Obligations.Loads := fun s _ n _ _ =>
  ⟨loadByte_accesses rfl rfl (finish_wroteReg n _ s), loadHalf_accesses rfl rfl (finish_wroteReg n _ s),
    loadLong_accesses rfl rfl (finish_wroteReg n _ s),
    loadByte_accesses rfl rfl (finish_wroteReg 0 _ s), loadHalf_accesses rfl rfl (finish_wroteReg 0 _ s),
    loadLong_accesses rfl rfl (finish_wroteReg n _ s),
    loadByte_accesses rfl rfl (finish_wroteReg n _ s), loadHalf_accesses rfl rfl (finish_wroteReg n _ s),
    loadLong_accesses rfl rfl (finish_wroteReg n _ s),
    loadByte_accesses rfl rfl (finish_wroteReg 0 _ s), loadHalf_accesses rfl rfl (finish_wroteReg 0 _ s),
    loadLong_accesses rfl rfl (finish_wroteReg 0 _ s)⟩

/-- Settles O30: the twelve stores differ in their width, their source and their address. -/
theorem stores : Obligations.Stores := fun _ _ _ _ _ hm =>
  ⟨storeByte_accesses rfl rfl (storeByteFrom_stored hm), storeHalf_accesses rfl rfl (storeHalfFrom_stored hm),
    storeLong_accesses rfl rfl (storeLongFrom_stored hm),
    storeByte_accesses rfl rfl (storeByteFrom_stored hm), storeHalf_accesses rfl rfl (storeHalfFrom_stored hm),
    storeLong_accesses rfl rfl (storeLongFrom_stored hm),
    storeByte_accesses rfl rfl (storeByteFrom_stored hm), storeHalf_accesses rfl rfl (storeHalfFrom_stored hm),
    storeLong_accesses rfl rfl (storeLongFrom_stored hm),
    storeByte_accesses rfl rfl (storeByteFrom_stored hm), storeHalf_accesses rfl rfl (storeHalfFrom_stored hm),
    storeLong_accesses rfl rfl (storeLongFrom_stored hm)⟩

/-! ### Post-increment and pre-decrement -/

/-- An update of the pointer, then of the destination, which wins where both are one register (R86). -/
theorem finish_wroteRegPair (n : RegNum) (v : Word) (m : RegNum) (p : Word) (s : State) :
    ∃ t, finish ((s.setReg m p).setReg n v) = .next t ∧ WroteRegPair n v m p s t := by
  refine ⟨_, rfl, ⟨by simp, fun hne => ?_, ⟨fun r hr => ?_, fun _ _ => rfl, fun r _ => by cases r <;> rfl, rfl,
    rfl, rfl, rfl, rfl⟩, ⟨fun _ _ => rfl, rfl⟩, ⟨rfl, rfl, rfl, rfl⟩⟩⟩
  · rw [State.advance_reg, State.reg_setReg_of_ne _ _ hne, State.reg_setReg_self]
  · obtain ⟨hn, hm⟩ : r ≠ n ∧ r ≠ m := by simpa using hr
    rw [State.advance_reg, State.reg_setReg_of_ne _ _ hn, State.reg_setReg_of_ne _ _ hm]

/-- A store that ends with an update of its pointer does to memory what the store alone does. -/
theorem store_setReg_stored {stored : Except MemErr State} {s s' : State} {width : Nat} {a : Word} {R : State → Prop}
    (n : RegNum) (p : Word) (hok : stored = .ok s')
    (h : ∃ t, withStore stored s finish = .next t ∧ Stored width a [] false s t ∧ R t)
    (hR : R s'.advance → R (s'.setReg n p).advance) :
    ∃ t, withStore stored s (fun w => finish (w.setReg n p)) = .next t ∧
      Stored width a [n] false s t ∧ t.reg n = p ∧ R t := by
  subst hok
  obtain ⟨t, ht, hstored, hr⟩ := h
  cases ht
  exact ⟨_, rfl, hstored.setReg n p false, State.reg_setReg_self s' n p, hR hr⟩

/-- Settles O31: a load also writes its pointer, before the destination; a store also its pointer, after the value of
Rm is read. -/
theorem pointerUpdates : Obligations.PointerUpdates := fun s m n hm =>
  ⟨loadByte_accesses rfl rfl (finish_wroteRegPair n _ m _ s),
    loadHalf_accesses rfl rfl (finish_wroteRegPair n _ m _ s),
    loadLong_accesses rfl rfl (finish_wroteRegPair n _ m _ s),
    storeByte_accesses rfl rfl fun hw =>
      store_setReg_stored n _ (State.storeByte_of_writable _ hw) (storeByteFrom_stored hm hw) id,
    storeHalf_accesses rfl rfl fun hw =>
      store_setReg_stored n _ (State.storeHalf_of_writable _ hw) (storeHalfFrom_stored hm hw) id,
    storeLong_accesses rfl rfl (storeLongDec_stored hm)⟩

/-! ### The PC-relative forms -/

theorem State.pcOperand_eq {s : State} {op : Word}
    (h : s.slot = .none ∧ op = s.pc + 4 ∨ (∃ target, s.slot = .pending target ∧ op = target + 2) ∨
      s.slot = .untaken ∧ op = s.pc + 4) : s.pcOperand = op := by
  rcases h with ⟨hs, rfl⟩ | ⟨target, hs, rfl⟩ | ⟨hs, rfl⟩ <;> rw [State.pcOperand, hs]

/-- A word operand is as aligned as the PC operand. -/
theorem State.eaPcWord_mod_two (s : State) (disp : BitVec 8) :
    (s.eaPcWord disp).toNat % 2 = s.pcOperand.toNat % 2 := by
  have htwo : (2 : Word).toNat = 2 := rfl
  rw [State.eaPcWord, scaledDisp8, BitVec.toNat_add, BitVec.toNat_mul, htwo]
  omega

theorem and_mask_mod_four (a : Word) : (a &&& 0xFFFFFFFC).toNat % 4 = 0 := by
  rw [BitVec.toNat_and, Nat.and_mod_two_pow (n := 2)]
  exact Nat.and_zero _

/-- A longword operand is always aligned. -/
theorem State.eaPcLong_mod_four (s : State) (disp : BitVec 8) : (s.eaPcLong disp).toNat % 4 = 0 := by
  have hfour : (4 : Word).toNat = 4 := rfl
  have hbase := and_mask_mod_four s.pcOperand
  rw [State.eaPcLong, scaledDisp8, BitVec.toNat_add, BitVec.toNat_mul, hfour]
  omega

/-- Settles O28: a word is read at an address as even as the PC operand, a longword always at an aligned one; MOVA only
writes that address. -/
theorem pcRelativeForms : Obligations.PcRelativeForms := by
  intro s n disp op h
  obtain rfl := State.pcOperand_eq h
  have hword : Accesses (nibblesByte 9 n disp) (.movWPcRel disp n) .read 2 (s.eaPcWord disp) s
      (WroteReg n ((s.halfAt 1 (s.eaPcWord disp)).signExtend 32) s) :=
    loadHalf_accesses rfl rfl (finish_wroteReg n _ s)
  have hlong : Accesses (nibblesByte 0xD n disp) (.movLPcRel disp n) .read 4 (s.eaPcLong disp) s
      (WroteReg n (s.longAt 1 (s.eaPcLong disp)) s) :=
    loadLong_accesses rfl rfl (finish_wroteReg n _ s)
  refine ⟨rfl, rfl, hword.decoded, fun heven hk => ?_, hlong.decoded, fun hk => ?_,
    means_of_encode rfl (finish_wroteReg 0 _ s)⟩
  · have hal : s.pcOperand.toNat % 2 = 0 :=
      not_not.1 (mt (odd_iff_getLsbD_zero s.pcOperand).1 (Bool.eq_false_iff.1 heven))
    exact hword.completes (show s.Readable 2 _ from ⟨(s.eaPcWord_mod_two disp).trans hal, hk⟩)
  · exact hlong.completes (show s.Readable 4 _ from ⟨s.eaPcLong_mod_four disp, hk⟩)

/-! ### Codes the spec prints -/

/-- Settles O4: each code is that of the instruction beside it; the last three reach no row of the decoder. -/
theorem specCodesDecode : Obligations.SpecCodesDecode :=
  ⟨decode_encode (.movImm 0x80 1), decode_encode (.movLStoreDec 14 15), decode_encode (.movLLoadDisp 2 0 1),
    decode_encode (.mova 1), decode_encode (.addc 3 1), decode_encode (.macL 0 1), decode_encode (.dt 5),
    decode_encode (.andB 0x80), decode_encode (.tasB 7), decode_encode (.shll16 0), decode_encode (.bf 0xFE),
    decode_encode (.bra 0xFFE), decode_encode (.bsrf 1), decode_encode (.ldcLGbr 15), decode_encode (.trapa 0x20),
    decode_encode .rte, decode_encode (.fdiv 6 5), decode_encode (.fmovStoreDec 4 3), decode_encode (.ftrc 6),
    decode_encode (.ldsFpscr 4), decode_encode (.stsLFpul 7), rfl, rfl, rfl⟩

end Sys2Proof.Machine
end

section
/-! PROOFS. Arithmetic on registers (41_arithmetic): the frame of an instruction that updates several registers, the
results of additions, subtractions and compares as facts about integers, and one step of a division. -/

namespace Sys2Proof.Machine

/-! ### Frames, one update at a time -/

namespace Frame

variable {regs : List RegNum} {fregs : List FRegNum} {specials : List Special} {bits : Word} {s w : State}

theorem refl (s : State) : Frame regs fregs specials bits s s :=
  ⟨fun _ _ => rfl, fun _ _ => rfl, fun _ _ => rfl, rfl, rfl, rfl, rfl, rfl⟩

theorem setReg (h : Frame regs fregs specials bits s w) {n : RegNum} (hn : n ∈ regs) (v : Word) :
    Frame regs fregs specials bits s (w.setReg n v) :=
  { h with
    regs := fun r hr => (w.reg_setReg_of_ne v (ne_of_mem_of_not_mem hn hr).symm).trans (h.regs r hr)
    specials := fun r hr => by cases r <;> exact h.specials _ hr }

/-- A write of one bit of SR that the frame lets change. -/
theorem srBit {i : Nat} (h : Frame regs fregs specials bits s w) (hi : i < 32) (hb : bits.getLsbD i = true)
    (b : Bool) : Frame regs fregs specials bits s { w with sr := setBit w.sr i b } :=
  { h with
    sr := (setBit_and_not _ _ _ _ hi hb).trans h.sr
    specials := fun r hr => by cases r <;> exact h.specials _ hr }

theorem setT (h : Frame regs fregs specials srTQM s w) (b : Bool) : Frame regs fregs specials srTQM s (w.setT b) :=
  h.srBit (by decide) (by decide) b

theorem setQ (h : Frame regs fregs specials srTQM s w) (b : Bool) : Frame regs fregs specials srTQM s (w.setQ b) :=
  h.srBit (by decide) (by decide) b

theorem setM (h : Frame regs fregs specials srTQM s w) (b : Bool) : Frame regs fregs specials srTQM s (w.setM b) :=
  h.srBit (by decide) (by decide) b

theorem setMac (h : Frame regs fregs specials bits s w) (hh : .mach ∈ specials) (hl : .macl ∈ specials)
    (v : BitVec 64) : Frame regs fregs specials bits s (w.setMac v) :=
  { h with
    specials := fun r hr => by
      cases r with
      | mach => exact absurd hh hr
      | macl => exact absurd hl hr
      | _ => exact h.specials _ hr }

theorem advance (h : Frame regs fregs specials bits s w) : Frame regs fregs specials bits s w.advance :=
  { h with specials := fun r hr => by cases r <;> exact h.specials _ hr }

end Frame

/-! ### Sums, differences and extensions -/

/-- Zero-extended low bits are the bits under a mask. -/
theorem extractLsb'_setWidth_eq_and (a : Word) {k : Nat} (hk : k ≤ 32) :
    (a.extractLsb' 0 k).setWidth 32 = a &&& BitVec.ofNat 32 (2 ^ k - 1) := by
  have hle : 2 ^ k ≤ 2 ^ 32 := Nat.pow_le_pow_right (by decide) hk
  have hpos : 0 < 2 ^ k := Nat.two_pow_pos k
  apply BitVec.eq_of_toNat_eq
  rw [BitVec.toNat_setWidth_of_le hk, BitVec.extractLsb'_toNat, BitVec.toNat_and, BitVec.toNat_ofNat,
    Nat.mod_eq_of_lt (by omega : 2 ^ k - 1 < 2 ^ 32), Nat.and_two_pow_sub_one_eq_mod, Nat.shiftRight_zero]

/-- Settles O32: each of the eight forms ends with one write of Rn. -/
theorem addSubtractExtend : Obligations.AddSubtractExtend := fun s m n _ =>
  ⟨means_of_encode rfl (finish_wroteReg n _ s), means_of_encode rfl (finish_wroteReg n _ s),
    means_of_encode rfl (finish_wroteReg n _ s), means_of_encode rfl (finish_wroteReg n _ s),
    means_of_encode rfl (finish_wroteReg n _ s), means_of_encode rfl (finish_wroteReg n _ s),
    means_of_encode rfl (extractLsb'_setWidth_eq_and (s.reg m) (k := 8) (by decide) ▸ finish_wroteReg n _ s),
    means_of_encode rfl (extractLsb'_setWidth_eq_and (s.reg m) (k := 16) (by decide) ▸ finish_wroteReg n _ s)⟩

/-! ### Carry, borrow and overflow (R151) -/

theorem bitWord_toNat (b : Bool) : (bitWord b).toNat = b.toNat := by cases b <;> rfl

theorem bitNat_eq_toNat (b : Bool) : bitNat b = b.toNat := by cases b <;> rfl

theorem decide_toNat (p : Prop) [Decidable p] : (decide p).toNat = if p then 1 else 0 :=
  apply_ite Bool.toNat p true false

/-- The sum and the carry out of it are the exact sum. -/
theorem add_carryOf (a b : Word) (c : Bool) :
    (a + b + bitWord c).toNat + 2 ^ 32 * (carryOf a b c).toNat = a.toNat + b.toNat + c.toNat := by
  have hc := c.toNat_lt
  rw [carryOf, bitNat_eq_toNat, decide_toNat, BitVec.toNat_add, BitVec.toNat_add, bitWord_toNat]
  split <;> omega

/-- The difference less the borrow out of it is the exact difference. -/
theorem sub_borrowOf (a b : Word) (c : Bool) :
    ((a - b - bitWord c).toNat - 2 ^ 32 * (borrowOf a b c).toNat : Int) = a.toNat - b.toNat - c.toNat := by
  have hc := c.toNat_lt
  rw [borrowOf, bitNat_eq_toNat, decide_toNat, BitVec.toNat_sub, BitVec.toNat_sub, bitWord_toNat]
  split <;> omega

theorem addOverflow_eq_saddOverflow (a b : Word) : addOverflow a b = a.saddOverflow b :=
  (BitVec.saddOverflow_eq a b).symm

theorem subOverflow_eq_ssubOverflow (a b : Word) : subOverflow a b = a.ssubOverflow b := by
  rw [subOverflow, BitVec.ssubOverflow_eq]
  cases a.msb <;> cases b.msb <;> simp

theorem addOverflow_iff (a b : Word) :
    addOverflow a b = true ↔ a.toInt + b.toInt < -2 ^ 31 ∨ 2 ^ 31 ≤ a.toInt + b.toInt := by
  rw [addOverflow_eq_saddOverflow, BitVec.saddOverflow]
  simp [or_comm]

theorem subOverflow_iff (a b : Word) :
    subOverflow a b = true ↔ a.toInt - b.toInt < -2 ^ 31 ∨ 2 ^ 31 ≤ a.toInt - b.toInt := by
  rw [subOverflow_eq_ssubOverflow, BitVec.ssubOverflow]
  simp [or_comm]

/-- An instruction that ends with a write of Rn and T, and what is known of the two values. -/
theorem completes_wroteRegT {i : Instr} {s : State} {n : RegNum} {v : Word} {b : Bool} {P : Word → Bool → Prop}
    (hi : exec i s = finish ((s.setReg n v).setT b)) (hP : P v b) :
    Completes i s fun t => WroteRegT n (t.reg n) t.t s t ∧ P (t.reg n) t.t := by
  obtain ⟨t, ht, hw⟩ := finish_wroteRegT n v b s
  exact ⟨t, hi.trans ht, by rwa [hw.result, hw.flag], by rwa [hw.result, hw.flag]⟩

/-- The same where the value of Rn is stated outright. -/
theorem completes_wroteRegT_flag {i : Instr} {s : State} {n : RegNum} {v : Word} {b : Bool} {P : Bool → Prop}
    (hi : exec i s = finish ((s.setReg n v).setT b)) (hP : P b) :
    Completes i s fun t => WroteRegT n v t.t s t ∧ P t.t := by
  obtain ⟨t, ht, hw⟩ := finish_wroteRegT n v b s
  exact ⟨t, hi.trans ht, by rwa [hw.flag], by rwa [hw.flag]⟩

/-- Settles O33: each form ends with a write of Rn and T, which hold the exact result or say where it is out of
range. -/
theorem carryAndOverflow : Obligations.CarryAndOverflow := fun s m n =>
  ⟨means_of_encode rfl (completes_wroteRegT (P := fun v b => v.toNat + 2 ^ 32 * b.toNat = _) rfl
      (add_carryOf (s.reg n) (s.reg m) s.t)),
    means_of_encode rfl (completes_wroteRegT (P := fun v b => (v.toNat - 2 ^ 32 * b.toNat : Int) = _) rfl
      (sub_borrowOf (s.reg n) (s.reg m) s.t)),
    means_of_encode rfl (completes_wroteRegT (P := fun v b => (v.toNat - 2 ^ 32 * b.toNat : Int) = _) rfl
      (sub_borrowOf 0 (s.reg m) s.t)),
    means_of_encode rfl (completes_wroteRegT_flag (P := fun b => b = true ↔ _) rfl
      (addOverflow_iff (s.reg n) (s.reg m))),
    means_of_encode rfl (completes_wroteRegT_flag (P := fun b => b = true ↔ _) rfl
      (subOverflow_iff (s.reg n) (s.reg m)))⟩

/-! ### Compares -/

/-- An instruction that ends with a write of T only. -/
theorem completes_wroteT {i : Instr} {s : State} {b c : Bool} (hi : exec i s = finish (s.setT b)) (hb : b = c) :
    Completes i s (WroteT c s) :=
  completes_of_exec_eq hi (hb ▸ finish_wroteT b s)

/-- Two longwords agree in a byte exactly where their exclusive or is zero there. -/
theorem xor_extractLsb'_eq_zero_iff (a b : Word) (k : Nat) :
    (a ^^^ b).extractLsb' k 8 = 0 ↔ a.extractLsb' k 8 = b.extractLsb' k 8 := by
  rw [BitVec.extractLsb'_xor]
  exact BitVec.xor_eq_zero_iff

theorem someByteEqual_iff (a b : Word) :
    someByteEqual a b = true ↔ ∃ j, j < 4 ∧ (a ^^^ b).extractLsb' (8 * j) 8 = 0 := by
  simp only [xor_extractLsb'_eq_zero_iff, someByteEqual, Bool.or_eq_true, beq_iff_eq]
  constructor
  · rintro (((h | h) | h) | h)
    · exact ⟨3, by decide, h⟩
    · exact ⟨2, by decide, h⟩
    · exact ⟨1, by decide, h⟩
    · exact ⟨0, by decide, h⟩
  · rintro ⟨j, hj, h⟩
    match j, hj with
    | 0, _ => exact .inr h
    | 1, _ => exact .inl (.inr h)
    | 2, _ => exact .inl (.inl (.inr h))
    | 3, _ => exact .inl (.inl (.inl h))

/-- Settles O34: each compare ends with a write of T, which is the order of its operands as numbers. -/
theorem compares : Obligations.Compares := fun s m n _ =>
  ⟨means_of_encode rfl (completes_wroteT rfl rfl), means_of_encode rfl (completes_wroteT rfl rfl),
    means_of_encode rfl (completes_wroteT rfl BitVec.ule_eq_decide),
    means_of_encode rfl (completes_wroteT rfl BitVec.sle_eq_decide),
    means_of_encode rfl (completes_wroteT rfl BitVec.ult_eq_decide),
    means_of_encode rfl (completes_wroteT rfl BitVec.slt_eq_decide),
    means_of_encode rfl (completes_wroteT rfl BitVec.slt_eq_decide),
    means_of_encode rfl (completes_wroteT rfl BitVec.sle_eq_decide),
    means_of_encode rfl
      ((finish_wroteT (someByteEqual (s.reg n) (s.reg m)) s).imp fun t ⟨ht, hw⟩ =>
        ⟨ht, hw.flag ▸ hw, by rw [hw.flag]; exact someByteEqual_iff (s.reg n) (s.reg m)⟩)⟩

/-! ### Division steps (R168 to R170) -/

theorem completes_div0u (s : State) :
    Completes .div0u s fun t => t.m = false ∧ t.q = false ∧ t.t = false ∧
      Frame [] [] [] srTQM s t ∧ MemKept s t ∧ Completed false s t :=
  ⟨_, rfl, by simp, by simp, by simp, ((((Frame.refl s).setM _).setQ _).setT _).advance,
    ⟨fun _ _ => rfl, rfl⟩, ⟨rfl, rfl, rfl, rfl⟩⟩

theorem completes_div0s (s : State) (m n : RegNum) :
    Completes (.div0s m n) s fun t => t.q = (s.reg n).getLsbD 31 ∧ t.m = (s.reg m).getLsbD 31 ∧
      t.t = (t.m ^^ t.q) ∧ Frame [] [] [] srTQM s t ∧ MemKept s t ∧ Completed false s t :=
  ⟨_, rfl, by simp [BitVec.msb_eq_getLsbD_last], by simp [BitVec.msb_eq_getLsbD_last], by simp,
    ((((Frame.refl s).setQ _).setM _).setT _).advance, ⟨fun _ _ => rfl, rfl⟩, ⟨rfl, rfl, rfl, rfl⟩⟩

/-- DIV1 with the dividend `x` of the step and its divisor `d`: the remainder and the three flags. -/
theorem completes_div1 {s : State} {m n : RegNum} {x d : Word} (hx : x = s.reg n <<< 1 ||| if s.t then 1 else 0)
    (hd : d = if m = n then x else s.reg m) :
    Completes (.div1 m n) s fun t =>
      t.reg n = div1Result x d (s.q == s.m) ∧
      t.q = (((s.reg n).msb ^^ div1Carry x d (s.q == s.m)) ^^ s.m) ∧ t.m = s.m ∧ t.t = (t.q == t.m) ∧
      Frame [n] [] [] srTQM s t ∧ MemKept s t ∧ Completed false s t := by
  subst hx hd
  exact ⟨_, rfl, by simp [div1Shifted, bitWord], by simp [div1Shifted, bitWord], by simp, by simp,
    ((((Frame.refl s).setReg (List.mem_singleton_self n) _).setQ _).setT _).advance,
    ⟨fun _ _ => rfl, rfl⟩, ⟨rfl, rfl, rfl, rfl⟩⟩

/-- Settles O35: DIV0U and DIV0S are three writes of flags, and DIV1 subtracts with a borrow or adds with a carry. -/
theorem divisionSteps : Obligations.DivisionSteps := by
  intro s m n
  refine ⟨means_of_encode rfl (completes_div0u s), means_of_encode rfl (completes_div0s s m n), ?_⟩
  intro x d hx hd
  obtain ⟨t, ht, hreg, hq, hm, hflag, hframe⟩ := completes_div1 hx hd
  rw [BitVec.msb_eq_getLsbD_last] at hq
  refine means_of_encode rfl ⟨t, ht, fun heq => ?_, fun hne => ?_, hm, hflag, hframe⟩
  · rw [beq_iff_eq.2 heq] at hreg hq
    exact ⟨hreg, hq⟩
  · rw [beq_eq_false_iff_ne.2 hne] at hreg hq
    exact ⟨hreg, hq⟩

/-! ### One step of an unsigned division -/

/-- The remainder of an unsigned division: a longword with a sign of its own, as a 33-bit number. -/
def signedRemainder (w : Word) (sign : Bool) : Int := w.toNat - 2 ^ 32 * sign.toNat

theorem signedRemainder_false (w : Word) : signedRemainder w false = w.toNat := by simp [signedRemainder]

theorem signedRemainder_true (w : Word) : signedRemainder w true = w.toNat - 2 ^ 32 := by simp [signedRemainder]

theorem signedRemainder_nonneg_iff (w : Word) (sign : Bool) : 0 ≤ signedRemainder w sign ↔ sign = false := by
  have hw := w.isLt
  cases sign
  · simp [signedRemainder_false]
  · simp only [signedRemainder_true, Bool.true_eq_false, iff_false]
    omega

/-- The bit shifted out and the longword that stays are twice the old one and the bit shifted in. -/
theorem div1Shifted_toNat (w : Word) (b : Bool) :
    2 ^ 32 * w.msb.toNat + (div1Shifted w b).toNat = 2 * w.toNat + b.toNat := by
  have hb := b.toNat_lt
  have hw := w.isLt
  have hbit : w <<< 1 &&& bitWord b = 0 := by
    cases b
    · exact BitVec.and_zero
    · ext i hi
      rcases Nat.eq_zero_or_pos i with rfl | hpos
      · simp
      · simp [bitWord, BitVec.getElem_one, Nat.ne_of_gt hpos]
  rw [div1Shifted, ← BitVec.add_eq_or_of_and_eq_zero _ _ hbit, BitVec.toNat_add, BitVec.toNat_shiftLeft,
    bitWord_toNat, BitVec.msb_eq_decide, decide_toNat, Nat.shiftLeft_eq]
  split <;> omega

section

variable {w x d : Word} {b out : Bool} (hx : 2 ^ 32 * out.toNat + x.toNat = 2 * w.toNat + b.toNat)
include hx

/-- A remainder below the divisor: a bit shifted out of it is borrowed back, so that the difference has the sign of
the two. -/
theorem signedRemainder_sub (hlt : w.toNat < d.toNat) :
    signedRemainder (div1Result x d true) (out ^^ div1Carry x d true) = 2 * w.toNat + b.toNat - d.toNat := by
  have hb := b.toNat_lt
  have hd := d.isLt
  have hdiff : ((x - d).toNat - 2 ^ 32 * (borrowOf x d false).toNat : Int) = x.toNat - d.toNat := by
    simpa [bitWord] using sub_borrowOf x d false
  show signedRemainder (x - d) (out ^^ borrowOf x d false) = _
  cases out with
  | false =>
    rw [Bool.toNat_false] at hx
    rw [Bool.false_xor, signedRemainder]
    omega
  | true =>
    rw [Bool.toNat_true] at hx
    have hborrow : borrowOf x d false = true := decide_eq_true (show x.toNat < d.toNat by omega)
    rw [hborrow, Bool.toNat_true] at hdiff
    rw [hborrow, Bool.true_xor, Bool.not_true, signedRemainder_false]
    omega

/-- A negative remainder not below the negated divisor: a 0 shifted out of it meets a carry, so that the sum has the
sign of the two. -/
theorem signedRemainder_add (hle : 2 ^ 32 ≤ w.toNat + d.toNat) :
    signedRemainder (div1Result x d false) (out ^^ div1Carry x d false) =
      2 * (w.toNat - 2 ^ 32) + b.toNat + d.toNat := by
  have hw := w.isLt
  have hsum : (x + d).toNat + 2 ^ 32 * (carryOf x d false).toNat = x.toNat + d.toNat := by
    simpa [bitWord] using add_carryOf x d false
  show signedRemainder (x + d) (out ^^ carryOf x d false) = _
  cases out with
  | false =>
    rw [Bool.toNat_false] at hx
    have hcarry : carryOf x d false = true := decide_eq_true (show 2 ^ 32 ≤ x.toNat + d.toNat by omega)
    rw [hcarry, Bool.toNat_true] at hsum
    rw [hcarry, Bool.false_xor, signedRemainder_true]
    omega
  | true =>
    rw [Bool.toNat_true] at hx
    have hnot : (!carryOf x d false).toNat + (carryOf x d false).toNat = 1 := by cases carryOf x d false <;> rfl
    rw [Bool.true_xor, signedRemainder]
    omega

/-- The step subtracts the divisor from a remainder that is not negative, and adds it to a negative one. -/
theorem signedRemainder_step {sign : Bool} (hlow : -(d.toNat : Int) ≤ signedRemainder w sign)
    (hhigh : signedRemainder w sign < d.toNat) :
    signedRemainder (div1Result x d (sign == false)) (out ^^ div1Carry x d (sign == false)) =
      2 * signedRemainder w sign + b.toNat + if 0 ≤ signedRemainder w sign then -(d.toNat : Int) else d.toNat := by
  simp only [signedRemainder_nonneg_iff]
  cases sign with
  | false =>
    rw [signedRemainder_false] at hlow hhigh ⊢
    exact signedRemainder_sub hx (Int.ofNat_lt.1 hhigh)
  | true =>
    rw [signedRemainder_true] at hlow hhigh ⊢
    exact signedRemainder_add hx (by omega)

end

/-- Settles O36: the step is `signedRemainder_step`, which keeps the range, and T is set where Q, the new sign, is
not. -/
theorem unsignedDivisionStep : Obligations.UnsignedDivisionStep := by
  intro s t m n d r r' hne hM hd hr hlow hhigh ht hr'
  obtain ⟨t', ht', hreg, hq, hm, hflag, -⟩ :=
    completes_div1 (s := s) (m := m) (n := n) (x := div1Shifted (s.reg n) s.t) (d := s.reg m) rfl (if_neg hne).symm
  obtain rfl : t' = t := by injection ht'.symm.trans ht
  rw [hM, Bool.xor_false] at hq
  rw [hM] at hreg hm
  have hstep : r' = 2 * r + s.t.toNat + (if 0 ≤ r then -d else d) := by
    subst hd hr hr'
    rw [hreg, hq]
    exact signedRemainder_step (div1Shifted_toNat (s.reg n) s.t) hlow hhigh
  have hbit := s.t.toNat_lt
  obtain ⟨hlow', hhigh'⟩ : -d ≤ r' ∧ r' < d := by split at hstep <;> omega
  refine ⟨hstep, hlow', hhigh', ?_⟩
  rw [hflag, hm, hr', beq_iff_eq]
  exact (signedRemainder_nonneg_iff _ _).symm

end Sys2Proof.Machine
end

section
/-! PROOFS. Multiplication (41_arithmetic): products as integers that fit their registers, and the multiply-accumulate
instructions with their two reads through advancing pointers. -/

namespace Sys2Proof.Machine

/-! ### Multiply -/

/-- A write of MACH and MACL is read back whole. -/
theorem State.mac_setMac (s : State) (v : BitVec 64) : (s.setMac v).mach ++ (s.setMac v).macl = v :=
  (BitVec.extractLsb'_append_extractLsb'_eq_extractLsb' rfl).trans BitVec.extractLsb'_eq_self

/-- An instruction that ends with a write of MACH and MACL, and what is known of the value. -/
theorem completes_wroteMac {i : Instr} {s : State} {v : BitVec 64} {P : BitVec 64 → Prop}
    (hi : exec i s = finish (s.setMac v)) (hP : P v) :
    Completes i s fun t => WroteMac (t.mach ++ t.macl) s t ∧ P (t.mach ++ t.macl) := by
  have hv : (s.setMac v).advance.mach ++ (s.setMac v).advance.macl = v := s.mac_setMac v
  exact ⟨_, hi, ⟨rfl, ((Frame.refl s).setMac (by simp) (by simp) v).advance, ⟨fun _ _ => rfl, rfl⟩,
    ⟨rfl, rfl, rfl, rfl⟩⟩, hv.symm ▸ hP⟩

/-- An instruction that ends with a write of MACL, and what is known of the value. -/
theorem completes_wroteMacl {i : Instr} {s : State} {v : Word} {P : Word → Prop}
    (hi : exec i s = finish (s.writeMacl v)) (hP : P v) :
    Completes i s fun t => WroteSpecial .macl t.macl false s t ∧ P t.macl := by
  obtain ⟨t, ht, hw⟩ := finish_wroteSpecial (v := v) (s.sameButSpecials_writeSpecial .macl v) rfl
    fun _ hq => s.special_writeSpecial_of_ne v hq
  have hv : t.macl = v := hw.result
  exact ⟨t, hi.trans ht, hv.symm ▸ hw, hv.symm ▸ hP⟩

/-- The signed product of two numbers of `w` bits fits twice as many. -/
theorem toInt_ofInt_mul {w : Nat} (hw : 0 < w) (a b : BitVec w) :
    (BitVec.ofInt (w * 2) (a.toInt * b.toInt)).toInt = a.toInt * b.toInt := by
  have hpow : (2 : Int) ^ (w * 2 - 2) < 2 ^ (w * 2 - 1) := pow_lt_pow_right₀ (by decide) (by omega)
  have hlow := BitVec.le_toInt_mul_toInt (x := a) (y := b)
  have hhigh := BitVec.toInt_mul_toInt_le (x := a) (y := b)
  exact BitVec.toInt_ofInt_eq_self (by omega) (by omega) (by omega)

/-- The unsigned product of two numbers of `w` bits fits twice as many. -/
theorem toNat_ofNat_mul {w : Nat} (a b : BitVec w) :
    (BitVec.ofNat (w * 2) (a.toNat * b.toNat)).toNat = a.toNat * b.toNat := by
  rw [BitVec.toNat_ofNat, Nat.mod_eq_of_lt BitVec.toNat_mul_toNat_lt]

/-- Settles O37: the products of two registers fit MACH and MACL, and those of two words fit MACL. -/
theorem multiplies : Obligations.Multiplies := fun s m n =>
  ⟨means_of_encode rfl (completes_wroteMac (P := fun v => v.toInt = _) rfl
      (toInt_ofInt_mul (by decide) (s.reg n) (s.reg m))),
    means_of_encode rfl (completes_wroteMac (P := fun v => v.toNat = _) rfl (toNat_ofNat_mul (s.reg n) (s.reg m))),
    means_of_encode rfl (completes_wroteMacl (P := fun v => v.toNat = _) rfl (BitVec.toNat_mul (s.reg n) (s.reg m))),
    means_of_encode rfl (completes_wroteMacl (P := fun v => v.toInt = _) rfl
      (toInt_ofInt_mul (by decide) (lowHalf (s.reg n)) (lowHalf (s.reg m)))),
    means_of_encode rfl (completes_wroteMacl (P := fun v => v.toNat = _) rfl
      (toNat_ofNat_mul (lowHalf (s.reg n)) (lowHalf (s.reg m))))⟩

/-! ### Values held in a range -/

theorem clampInt_of_lt {low high v : Int} (h : v < low) : clampInt low high v = low := if_pos h

theorem clampInt_of_gt {low high v : Int} (hle : low ≤ high) (h : high < v) : clampInt low high v = high := by
  rw [clampInt, if_neg (by omega), if_pos h]

theorem clampInt_of_mem {low high v : Int} (hlow : low ≤ v) (hhigh : v ≤ high) : clampInt low high v = v := by
  rw [clampInt, if_neg (by omega), if_neg (by omega)]

theorem clampInt_mem {low high : Int} (hle : low ≤ high) (v : Int) :
    low ≤ clampInt low high v ∧ clampInt low high v ≤ high := by
  unfold clampInt
  split_ifs <;> omega

theorem clampInt_ne_iff {low high v : Int} : clampInt low high v ≠ v ↔ v < low ∨ high < v := by
  unfold clampInt
  split_ifs <;> omega

/-- With S = 1, MAC.L leaves the sum held in 48 bits (D17). -/
theorem toInt_macLAccumulate (acc : BitVec 64) (a b : Word) :
    (macLAccumulate true acc a b).toInt =
      clampInt (-2 ^ 47) (2 ^ 47 - 1) ((acc.extractLsb' 0 48).toInt + a.toInt * b.toInt) := by
  obtain ⟨hlow, hhigh⟩ :=
    clampInt_mem (low := -2 ^ 47) (high := 2 ^ 47 - 1) (by decide) ((acc.extractLsb' 0 48).toInt + a.toInt * b.toInt)
  exact BitVec.toInt_ofInt_eq_self (by decide) (by omega) (by omega)

theorem append_eq_append_iff {a b c d : Word} : a ++ b = c ++ d ↔ a = c ∧ b = d := by
  refine ⟨fun h => ⟨?_, ?_⟩, fun ⟨hac, hbd⟩ => by rw [hac, hbd]⟩
  · simpa only [BitVec.extractLsb'_append_eq_left] using congrArg (BitVec.extractLsb' 32 32) h
  · simpa only [BitVec.extractLsb'_append_eq_right] using congrArg (BitVec.extractLsb' 0 32) h

/-- With S = 1, MAC.W leaves the sum held in MACL and notes in MACH, where the parameter says so, that it was out of
range (D18, assumption 22). -/
theorem macWAccumulate_eq_iff {setsLsb : Bool} {mach macl mach' macl' : Word} {a b : Half} {sum : Int}
    (hsum : sum = macl.toInt + a.toInt * b.toInt) :
    mach' ++ macl' = macWAccumulate true setsLsb mach macl a b ↔
      mach' = (if (sum < -2 ^ 31 ∨ 2 ^ 31 - 1 < sum) ∧ setsLsb then mach ||| 1 else mach) ∧
        macl' = BitVec.ofInt 32 (clampInt (-2 ^ 31) (2 ^ 31 - 1) sum) := by
  simp only [← clampInt_ne_iff (low := -2 ^ 31) (high := 2 ^ 31 - 1) (v := sum)]
  subst hsum
  exact append_eq_append_iff

/-! ### The two reads through advancing pointers -/

/-- Rn and then Rm advanced, twice the same register where they are one (R178). -/
def State.macAdvance (s : State) (m n : RegNum) (size : Word) : State :=
  (s.setReg n (s.reg n + size)).setReg m ((s.setReg n (s.reg n + size)).reg m + size)

theorem State.reg_macAdvance_fst (s : State) (m n : RegNum) (size : Word) :
    (s.macAdvance m n size).reg n = if m = n then s.reg n + (size + size) else s.reg n + size := by
  unfold State.macAdvance
  split
  · next h => rw [h, State.reg_setReg_self, State.reg_setReg_self, BitVec.add_assoc]
  · next h => rw [State.reg_setReg_of_ne _ _ (Ne.symm h), State.reg_setReg_self]

theorem State.reg_macAdvance_snd (s : State) {m n : RegNum} (size : Word) (h : m ≠ n) :
    (s.macAdvance m n size).reg m = s.reg m + size := by
  rw [State.macAdvance, State.reg_setReg_self, State.reg_setReg_of_ne _ _ h]

/-- The end of MAC.L and MAC.W: both pointers, MACH and MACL written, and nothing else but PC. -/
theorem finish_macAdvance (s : State) (m n : RegNum) (size : Word) (v : BitVec 64) :
    ∃ t, finish ((s.macAdvance m n size).setMac v) = .next t ∧ t.mach ++ t.macl = v ∧
      t.reg n = (if m = n then s.reg n + (size + size) else s.reg n + size) ∧ (m ≠ n → t.reg m = s.reg m + size) ∧
      Frame [n, m] [] [.mach, .macl] 0 s t ∧ MemKept s t ∧ Completed false s t :=
  ⟨_, rfl, (s.macAdvance m n size).mac_setMac v, s.reg_macAdvance_fst m n size, s.reg_macAdvance_snd size,
    ((((Frame.refl s).setReg (by simp) _).setReg (by simp) _).setMac (by simp) (by simp) v).advance,
    ⟨fun _ _ => rfl, rfl⟩, ⟨rfl, rfl, rfl, rfl⟩⟩

theorem withLoad_of_eq_ok {α : Type} {load : Except MemErr α} {v : α} {s : State} {k : α → Result}
    (h : load = .ok v) : withLoad load s k = k v :=
  h ▸ withLoad_ok v s k

theorem exec_macL {s : State} {m n : RegNum} {q : Word} (hq : q = if m = n then s.reg n + 4 else s.reg m)
    (hr : s.Readable 4 (s.reg n)) (hr' : s.Readable 4 q) :
    exec (.macL m n) s = finish ((s.macAdvance m n 4).setMac
      (macLAccumulate s.sBit (s.mach ++ s.macl) (s.longAt 1 (s.reg n)) (s.longAt 2 q))) := by
  rw [← State.reg_setReg] at hq
  subst hq
  exact (withLoad_of_eq_ok (State.loadLong_of_readable hr)).trans (withLoad_of_eq_ok (State.loadLong_of_readable hr'))

theorem exec_macW {s : State} {m n : RegNum} {q : Word} (hq : q = if m = n then s.reg n + 2 else s.reg m)
    (hr : s.Readable 2 (s.reg n)) (hr' : s.Readable 2 q) :
    exec (.macW m n) s = finish ((s.macAdvance m n 2).setMac
      (macWAccumulate s.sBit s.params.macwOvfSetsMachLsb s.mach s.macl (s.halfAt 1 (s.reg n)) (s.halfAt 2 q))) := by
  rw [← State.reg_setReg] at hq
  subst hq
  exact (withLoad_of_eq_ok (State.loadHalf_of_readable hr)).trans (withLoad_of_eq_ok (State.loadHalf_of_readable hr'))

/-- Settles O38: both reads complete, and the accumulator is the wrapped sum or the sum held in 48 bits. -/
theorem multiplyAccumulateLong : Obligations.MultiplyAccumulateLong := by
  intro s m n q a b sum hq hr hr' ha hb hsum
  obtain ⟨t, ht, hmac, hframe⟩ := finish_macAdvance s m n 4 (macLAccumulate s.sBit (s.mach ++ s.macl) a b)
  subst ha hb
  refine means_of_encode rfl ⟨t, (exec_macL hq hr hr').trans ht, fun hs => ?_, fun hs => ?_, hframe⟩
  · rw [hmac, hs]
    rfl
  · rw [hmac, hs, toInt_macLAccumulate, ← hsum]
    exact ⟨clampInt_of_lt, clampInt_of_gt (by decide), clampInt_of_mem⟩

/-- Settles O39: as for MAC.L, with the sum held in MACL and its overflow noted in MACH. -/
theorem multiplyAccumulateWord : Obligations.MultiplyAccumulateWord := by
  intro s m n q a b sum hq hr hr' ha hb hsum
  obtain ⟨t, ht, hmac, hframe⟩ :=
    finish_macAdvance s m n 2 (macWAccumulate s.sBit s.params.macwOvfSetsMachLsb s.mach s.macl a b)
  subst ha hb
  refine means_of_encode rfl ⟨t, (exec_macW hq hr hr').trans ht, fun hs => ?_, fun hs => ?_, hframe⟩
  · rw [hmac, hs]
    rfl
  · rw [hs, macWAccumulate_eq_iff hsum] at hmac
    obtain ⟨hmach, hmacl⟩ := hmac
    refine ⟨fun hlt => ?_, fun hgt => ?_, fun hlow hhigh => ⟨?_, ?_⟩, fun hout => ?_⟩
    · rw [hmacl, clampInt_of_lt hlt]
      rfl
    · rw [hmacl, clampInt_of_gt (by decide) hgt]
      rfl
    · rw [hmacl, clampInt_of_mem hlow hhigh]
      exact BitVec.toInt_ofInt_eq_self (by decide) hlow (by omega)
    · rw [hmach, if_neg (by omega)]
    · simpa only [hout, true_and] using hmach

end Sys2Proof.Machine
end

section
/-! PROOFS. Logic (42_logic): the forms on registers and immediates end with a write of one register, of T or of both,
and the forms on a byte of memory load it and, but for TST.B, store it again. -/

namespace Sys2Proof.Machine

/-! ### Registers and immediates -/

/-- DT finds the result zero exactly where the register holds 1. -/
theorem sub_one_beq_zero (a : Word) : (a - 1 == 0) = decide (a = 1) := by
  rw [beq_eq_decide, decide_eq_decide]
  exact sub_eq_zero

/-- Settles O40: seven forms end with one write of a register, the two TST with one of T, and DT with both. -/
theorem logicOnRegisters : Obligations.LogicOnRegisters := fun s m n _ =>
  ⟨means_of_encode rfl (finish_wroteReg n _ s), means_of_encode rfl (finish_wroteReg 0 _ s),
    means_of_encode rfl (BitVec.xor_allOnes (x := s.reg m) ▸ finish_wroteReg n _ s),
    means_of_encode rfl (finish_wroteReg n _ s), means_of_encode rfl (finish_wroteReg 0 _ s),
    means_of_encode rfl (finish_wroteReg n _ s), means_of_encode rfl (finish_wroteReg 0 _ s),
    means_of_encode rfl (completes_wroteT rfl (beq_eq_decide _ _)),
    means_of_encode rfl (completes_wroteT rfl (beq_eq_decide _ _)),
    means_of_encode rfl (sub_one_beq_zero (s.reg n) ▸ finish_wroteRegT n _ _ s)⟩

/-! ### A byte of memory -/

theorem lowByte_zext8 (b : Byte) : lowByte (zext8 b) = b := by
  rw [lowByte, zext8, BitVec.extractLsb'_setWidth_of_le (by decide), BitVec.extractLsb'_eq_self]

/-- A store of one byte, then the end of the instruction. -/
theorem storeByte_stored {s : State} {a : Word} (v : Byte) (hm : s.mem.wf = true) (hw : s.Writable 1 a) :
    ∃ t, withStore (s.storeByte a v) s finish = .next t ∧ Stored 1 a [] false s t ∧
      (s.InRam 1 a → ∀ k, t.byteAt k a = v) := by
  have h := storeByteFrom_stored (v := zext8 v) hm hw
  rwa [storeByteFrom, lowByte_zext8] at h

/-- Where a byte is writable it is readable, so the rewrite stores the byte combined. -/
theorem modifyByte_stored {s : State} {a : Word} (f : Byte → Byte) (hm : s.mem.wf = true) (hw : s.Writable 1 a) :
    ∃ t, modifyByte a f s = .next t ∧ Stored 1 a [] false s t ∧
      (s.InRam 1 a → ∀ k, t.byteAt k a = f (s.byteAt 1 a)) := by
  rw [modifyByte, State.loadByte_of_readable hw.1, withLoad_ok]
  exact storeByte_stored _ hm hw

/-- A frame that lets no bit of SR change is one that lets some. -/
theorem Frame.widenSr {regs : List RegNum} {fregs : List FRegNum} {specials : List Special} {s w : State}
    (h : Frame regs fregs specials 0 s w) (bits : Word) : Frame regs fregs specials bits s w :=
  have hsr : w.sr = s.sr := BitVec.and_allOnes.symm.trans (h.sr.trans BitVec.and_allOnes)
  { h with sr := by rw [hsr] }

/-- A store that ends with an update of T does to memory what the store alone does. -/
theorem store_setT_stored {stored : Except MemErr State} {s s' : State} {width : Nat} {a : Word} {R : State → Prop}
    (b : Bool) (hok : stored = .ok s')
    (h : ∃ t, withStore stored s finish = .next t ∧ Stored width a [] false s t ∧ R t)
    (hR : R s'.advance → R (s'.setT b).advance) :
    ∃ t, withStore stored s (fun w => finish (w.setT b)) = .next t ∧ t.t = b ∧ Frame [] [] [] srT s t ∧
      MemKeptOutside a width s t ∧ Completed false s t ∧ R t := by
  subst hok
  obtain ⟨t, ht, hstored, hr⟩ := h
  cases ht
  exact ⟨_, rfl, s'.t_setT b, (hstored.frame.widenSr srT).srBit (i := 0) (by decide) (by decide) b, hstored.memory,
    hstored.done, hR hr⟩

theorem completes_tstB {s : State} {a : Word} (imm : BitVec 8) (ha : s.eaGbrIndexed = a) (hr : s.Readable 1 a) :
    Completes (.tstB imm) s (WroteT (decide (s.byteAt 1 a &&& imm = 0)) s) := by
  subst ha
  exact completes_wroteT (withLoad_of_eq_ok (State.loadByte_of_readable hr)) (beq_eq_decide _ _)

theorem completes_tasB {s : State} {n : RegNum} (hm : s.mem.wf = true) (hw : s.Writable 1 (s.reg n)) :
    Completes (.tasB n) s fun t => t.t = decide (s.byteAt 1 (s.reg n) = 0) ∧ Frame [] [] [] srT s t ∧
      MemKeptOutside (s.reg n) 1 s t ∧ Completed false s t ∧
      (s.InRam 1 (s.reg n) → ∀ k, t.byteAt k (s.reg n) = s.byteAt 1 (s.reg n) ||| 0x80) :=
  completes_of_exec_eq (withLoad_of_eq_ok (State.loadByte_of_readable hw.1))
    (beq_eq_decide (s.byteAt 1 (s.reg n)) 0 ▸
      store_setT_stored _ (State.storeByte_of_writable _ hw) (storeByte_stored _ hm hw) id)

/-- Settles O41: three forms rewrite the byte at GBR + R0, TST.B only reads it, and TAS.B also writes T. -/
theorem logicOnMemory : Obligations.LogicOnMemory := by
  rintro s imm n _ hm rfl
  exact ⟨⟨decode_encode (.andB imm), decode_encode (.orB imm), decode_encode (.xorB imm), decode_encode (.tstB imm),
      decode_encode (.tasB n)⟩,
    fun hw => ⟨modifyByte_stored (· &&& imm) hm hw, modifyByte_stored (· ||| imm) hm hw,
      modifyByte_stored (· ^^^ imm) hm hw⟩,
    completes_tstB imm rfl, completes_tasB hm⟩

end Sys2Proof.Machine
end

section
/-! PROOFS. Shifts (43_shift): the bits of a longword shifted by one with a bit entering at either end, and the longer
shifts as products and quotients by powers of two. -/

namespace Sys2Proof.Machine

/-! ### One bit -/

theorem getLsbD_bitWord (b : Bool) (j : Nat) : (bitWord b).getLsbD j = (decide (j = 0) && b) := by
  cases b <;> simp [bitWord, BitVec.getLsbD_one]

/-- The bit entering at bit 0 stands there, and every other bit comes from the place below it. -/
theorem getLsbD_shiftLeft1 (w : Word) (low : Bool) {j : Nat} (hj : j < 32) :
    (shiftLeft1 w low).getLsbD j = if j = 0 then low else w.getLsbD (j - 1) := by
  rw [shiftLeft1, BitVec.getLsbD_or, BitVec.getLsbD_shiftLeft, getLsbD_bitWord]
  split
  next hbottom => simp [hbottom]
  next hne => simp [hj, hne]

/-- The bit entering at bit 31 stands there, and every other bit comes from the place above it. -/
theorem getLsbD_shiftRight1 (w : Word) (high : Bool) {j : Nat} (hj : j < 32) :
    (shiftRight1 w high).getLsbD j = if j = 31 then high else w.getLsbD (j + 1) := by
  rw [shiftRight1, BitVec.getLsbD_or, BitVec.getLsbD_ushiftRight, BitVec.getLsbD_shiftLeft, getLsbD_bitWord,
    Nat.add_comm 1 j]
  split
  next htop => simp [htop]
  next hne =>
    have hlow : j < 31 := by omega
    simp [hlow]

section OneBit

variable {i : Instr} {s : State} {n : RegNum} {b : Bool}

/-- An instruction that shifts Rn left by one, the bit shifted out going to T. -/
theorem completes_shiftLeft1
    (hi : exec i s = finish ((s.setReg n (shiftLeft1 (s.reg n) b)).setT (s.reg n).msb)) :
    Completes i s fun t => WroteRegT n (t.reg n) ((s.reg n).getLsbD 31) s t ∧
      ∀ j, j < 32 → (t.reg n).getLsbD j = if j = 0 then b else (s.reg n).getLsbD (j - 1) := by
  rw [BitVec.msb_eq_getLsbD_last] at hi
  obtain ⟨t, ht, hw⟩ := finish_wroteRegT n (shiftLeft1 (s.reg n) b) ((s.reg n).getLsbD 31) s
  exact ⟨t, hi.trans ht, by rwa [hw.result], fun _ hj => hw.result ▸ getLsbD_shiftLeft1 _ b hj⟩

/-- An instruction that shifts Rn right by one, the bit shifted out going to T. -/
theorem completes_shiftRight1
    (hi : exec i s = finish ((s.setReg n (shiftRight1 (s.reg n) b)).setT ((s.reg n).getLsbD 0))) :
    Completes i s fun t => WroteRegT n (t.reg n) ((s.reg n).getLsbD 0) s t ∧
      ∀ j, j < 32 → (t.reg n).getLsbD j = if j = 31 then b else (s.reg n).getLsbD (j + 1) := by
  obtain ⟨t, ht, hw⟩ := finish_wroteRegT n (shiftRight1 (s.reg n) b) ((s.reg n).getLsbD 0) s
  exact ⟨t, hi.trans ht, by rwa [hw.result], fun _ hj => hw.result ▸ getLsbD_shiftRight1 _ b hj⟩

end OneBit

/-- Settles O42: the eight forms are shifts by one, told apart by their direction and the bit that enters. -/
theorem oneBitShifts : Obligations.OneBitShifts := fun _ _ =>
  ⟨means_of_encode rfl (completes_shiftLeft1 rfl), means_of_encode rfl (completes_shiftRight1 rfl),
    means_of_encode rfl (completes_shiftLeft1 rfl), means_of_encode rfl (completes_shiftRight1 rfl),
    means_of_encode rfl (completes_shiftLeft1 rfl), means_of_encode rfl (completes_shiftRight1 rfl),
    means_of_encode rfl (completes_shiftLeft1 rfl), means_of_encode rfl (completes_shiftRight1 rfl)⟩

/-! ### Two, eight and sixteen bits -/

theorem shiftLeft_eq_ofNat_mul (w : Word) (k : Nat) : w <<< k = BitVec.ofNat 32 (w.toNat * 2 ^ k) := by
  apply BitVec.eq_of_toNat_eq
  rw [BitVec.toNat_shiftLeft, Nat.shiftLeft_eq, BitVec.toNat_ofNat]

theorem ushiftRight_eq_ofNat_div (w : Word) (k : Nat) : w >>> k = BitVec.ofNat 32 (w.toNat / 2 ^ k) := by
  have hlt : w.toNat / 2 ^ k < 2 ^ 32 := (Nat.div_le_self _ _).trans_lt w.isLt
  apply BitVec.eq_of_toNat_eq
  rw [BitVec.toNat_ushiftRight, Nat.shiftRight_eq_div_pow, BitVec.toNat_ofNat, Nat.mod_eq_of_lt hlt]

/-- An instruction that ends with a write of Rn only. -/
theorem completes_wroteReg {i : Instr} {s : State} {n : RegNum} {v w : Word} (hi : exec i s = finish (s.setReg n v))
    (hv : v = w) : Completes i s (WroteReg n w s) :=
  completes_of_exec_eq hi (hv ▸ finish_wroteReg n v s)

/-- Settles O43: each of the six forms writes Rn shifted by its distance, which is a product or a quotient. -/
theorem multiBitShifts : Obligations.MultiBitShifts := fun s n =>
  ⟨means_of_encode rfl (completes_wroteReg rfl (shiftLeft_eq_ofNat_mul (s.reg n) 2)),
    means_of_encode rfl (completes_wroteReg rfl (ushiftRight_eq_ofNat_div (s.reg n) 2)),
    means_of_encode rfl (completes_wroteReg rfl (shiftLeft_eq_ofNat_mul (s.reg n) 8)),
    means_of_encode rfl (completes_wroteReg rfl (ushiftRight_eq_ofNat_div (s.reg n) 8)),
    means_of_encode rfl (completes_wroteReg rfl (shiftLeft_eq_ofNat_mul (s.reg n) 16)),
    means_of_encode rfl (completes_wroteReg rfl (ushiftRight_eq_ofNat_div (s.reg n) 16))⟩

end Sys2Proof.Machine
end

section
/-! PROOFS. Branches (44_branch): an instruction guarded against delay slots, the ways a branch can leave PC and the
pending branch, and the eleven branches assembled from them. -/

namespace Sys2Proof.Machine

/-! ### Where control goes -/

/-- PC, the pending branch and the interrupt inhibit stand outside every frame. -/
theorem Frame.continueAt {regs : List RegNum} {fregs : List FRegNum} {specials : List Special} {bits : Word}
    {s w : State} (h : Frame regs fregs specials bits s w) (pc : Word) (slot : Slot) (inhibit : Bool) :
    Frame regs fregs specials bits s { w with pc := pc, slot := slot, inhibit := inhibit } :=
  { h with specials := fun r hr => by cases r <;> exact h.specials _ hr }

/-- The return address is a write of PR and of nothing else. -/
theorem Frame.linkPr (s : State) : Frame [] [] [.pr] 0 s s.linkPr :=
  { (Frame.refl s : Frame [] [] [.pr] 0 s s) with
    specials := fun r hr => by
      cases r with
      | pr => exact absurd (.head _) hr
      | _ => rfl }

/-- A state that goes on elsewhere has branched, with what it had changed before. -/
theorem Frame.branched {specials : List Special} {s w : State} (h : Frame [] [] specials 0 s w) (hm : MemKept s w)
    (hp : w.proc = s.proc) (pc : Word) (slot : Slot) :
    Branched pc slot specials s { w with pc := pc, slot := slot, inhibit := false } where
  pc := rfl
  slot := rfl
  inhibit := rfl
  proc := hp
  frame := h.continueAt pc slot false
  memory := hm

section Results

variable (s : State) (target : Word)

theorem jumpTo_branched : ∃ t, jumpTo target s = .next t ∧ Branched target .none [] s t :=
  ⟨_, rfl, (Frame.refl s).branched (memKept_refl s) rfl target .none⟩

theorem delayedBranch_branched :
    ∃ t, delayedBranch target s = .next t ∧ Branched (s.pc + 2) (.pending target) [] s t :=
  ⟨_, rfl, (Frame.refl s).branched (memKept_refl s) rfl (s.pc + 2) (.pending target)⟩

/-- A delayed branch that is a subroutine call. -/
theorem delayedBranch_linkPr_branched :
    ∃ t, delayedBranch target s.linkPr = .next t ∧ Branched (s.pc + 2) (.pending target) [.pr] s t ∧
      t.pr = s.pc + 4 :=
  ⟨_, rfl, (Frame.linkPr s).branched (memKept_refl s) rfl (s.pc + 2) (.pending target), s.linkPr_pr⟩

/-- A not-taken BF/S or BT/S (R246). -/
theorem untakenBranch_branched :
    ∃ t, untakenBranch s = .next t ∧
      Branched (s.pc + 2) (if s.params.untakenSlotIsSlot then .untaken else .none) [] s t :=
  ⟨_, rfl, (Frame.refl s).branched (memKept_refl s) rfl (s.pc + 2) _⟩

/-- A not-taken BF or BT: outside a slot the end of an instruction is a jump to the next one. -/
theorem finish_branched (hs : s.slot = .none) : ∃ t, finish s = .next t ∧ Branched (s.pc + 2) .none [] s t := by
  have hnext : s.nextPc = s.pc + 2 := by rw [State.nextPc, hs]
  rw [finish, State.advance, hnext]
  exact jumpTo_branched s (s.pc + 2)

end Results

/-- A choice between two results is the choice between what each of them does. -/
theorem next_ite {α : Type} {P : α → State → Prop} {a b : α} {r r' : Result} (c : Bool)
    (ht : ∃ t, r = .next t ∧ P a t) (hf : ∃ t, r' = .next t ∧ P b t) :
    ∃ t, (if c then r else r') = .next t ∧ P (if c then a else b) t := by
  cases c with
  | true => exact ht
  | false => exact hf

/-! ### Instructions that are illegal in a delay slot -/

/-- An instruction under the slot guard (R243): it completes outside a slot and is illegal in one. -/
theorem branches_of_guardSlot {code : Half} {i : Instr} {s : State} {r : Result} {P : State → Prop}
    (hc : encode i = code) (hi : exec i s = guardSlot s r) (h : s.slot = .none → ∃ t, r = .next t ∧ P t) :
    Branches code i s P where
  decoded := hc ▸ decode_encode i
  completes hs := completes_of_exec_eq (hi.trans (guardSlot_of_none r hs)) (h hs)
  illegal hs := hi.trans (guardSlot_of_ne_none r hs)

/-- Settles O44: BF and BT choose between a jump and the next instruction, BF/S and BT/S between a delayed branch and an
untaken one, four more only branch delayed, and the three calls write PR as well. -/
theorem branchInstructions : Obligations.BranchInstructions := fun s _ _ m =>
  ⟨branches_of_guardSlot rfl rfl fun hs =>
      next_ite (P := fun pc => Branched pc .none [] s) s.t (finish_branched s hs) (jumpTo_branched s _),
    branches_of_guardSlot rfl rfl fun _ =>
      next_ite (P := fun slot => Branched (s.pc + 2) slot [] s) s.t (untakenBranch_branched s)
        (delayedBranch_branched s _),
    branches_of_guardSlot rfl rfl fun hs =>
      next_ite (P := fun pc => Branched pc .none [] s) s.t (jumpTo_branched s _) (finish_branched s hs),
    branches_of_guardSlot rfl rfl fun _ =>
      next_ite (P := fun slot => Branched (s.pc + 2) slot [] s) s.t (delayedBranch_branched s _)
        (untakenBranch_branched s),
    branches_of_guardSlot rfl rfl fun _ => delayedBranch_branched s _,
    branches_of_guardSlot rfl rfl fun _ => delayedBranch_branched s (s.branchTargetReg m),
    branches_of_guardSlot rfl rfl fun _ => delayedBranch_linkPr_branched s _,
    branches_of_guardSlot rfl rfl fun _ => delayedBranch_linkPr_branched s (s.branchTargetReg m),
    branches_of_guardSlot rfl rfl fun _ => delayedBranch_branched s (s.reg m),
    branches_of_guardSlot rfl rfl fun _ => delayedBranch_linkPr_branched s (s.reg m),
    branches_of_guardSlot rfl rfl fun _ => delayedBranch_branched s s.pr⟩

end Sys2Proof.Machine
end

section
/-! PROOFS. System control (45_system_control): the flag instructions, SLEEP, the loads and stores of control and system
registers through an advancing pointer, RTE, and RTE after an exception entry. -/

namespace Sys2Proof.Machine

/-! ### Flags, MACH and MACL, and sleep -/

/-- Settles O48: each ends the instruction, after a write of nothing, of T, or of MACH and MACL. -/
theorem nopAndFlagInstructions : Obligations.NopAndFlagInstructions := fun s =>
  ⟨means_of_encode rfl ⟨s.advance, rfl, (Frame.refl s).advance, memKept_refl s, ⟨rfl, rfl, rfl, rfl⟩⟩,
    means_of_encode rfl (finish_wroteT false s),
    means_of_encode rfl (finish_wroteT true s),
    means_of_encode rfl ⟨(s.setMac 0).advance, rfl, rfl, rfl,
      ((Frame.refl s).setMac (by simp) (by simp) 0).advance, memKept_refl s, ⟨rfl, rfl, rfl, rfl⟩⟩⟩

/-- The processing state stands outside every frame. -/
theorem Frame.setProc {regs : List RegNum} {fregs : List FRegNum} {specials : List Special} {bits : Word}
    {s w : State} (h : Frame regs fregs specials bits s w) (proc : ProcState) :
    Frame regs fregs specials bits s { w with proc := proc } :=
  { h with specials := fun r hr => by cases r <;> exact h.specials _ hr }

/-- Settles O10: SLEEP writes the processing state and ends; asleep, a boundary that accepts nothing runs no
instruction. -/
theorem sleepWaits : Obligations.SleepWaits :=
  ⟨fun s => means_of_encode rfl ⟨_, rfl, rfl, rfl, rfl, rfl, ((Frame.refl s).setProc .sleep).advance, memKept_refl s⟩,
    fun s hn hp => (step_of_nothingAccepted hn).trans (sleepOrRun_of_sleep (s := s.beginStep) hp)⟩

/-! ### Loads and stores through a pointer -/

/-- A load of SR may change any of its bits and no other register. -/
theorem Frame.writeSr {regs : List RegNum} {fregs : List FRegNum} {specials : List Special} {s w : State}
    (h : Frame regs fregs specials 0xFFFFFFFF s w) (v : Word) :
    Frame regs fregs specials 0xFFFFFFFF s (w.writeSr v) :=
  { h with
    sr := BitVec.and_zero.trans BitVec.and_zero.symm
    specials := fun r hr => by cases r <;> exact h.specials _ hr }

/-- A load of SR with an update of the pointer it was read through. -/
theorem finishInhibit_writeSrInc (s : State) (m : RegNum) (v p : Word) :
    ∃ t, finishInhibit ((s.writeSr v).setReg m p) = .next t ∧ t.sr = v &&& srWriteMask s.params ∧ t.reg m = p ∧
      Frame [m] [] [] 0xFFFFFFFF s t ∧ MemKept s t ∧ Completed true s t :=
  ⟨_, rfl, rfl, State.reg_setReg_self (s.writeSr v) m p,
    (((Frame.refl s).writeSr v).setReg (by simp) p).continueAt s.nextPc .none true, memKept_refl s,
    ⟨rfl, rfl, rfl, rfl⟩⟩

/-- The same of a special register that takes a value as it is. -/
theorem finishInhibit_writeSpecialInc (s : State) {r : Special} (m : RegNum) (v p : Word) (h : r ≠ .fpscr) :
    ∃ t, finishInhibit ((s.writeSpecial r v).setReg m p) = .next t ∧ t.special r = v ∧ t.reg m = p ∧
      Frame [m] [] [r] 0 s t ∧ MemKept s t ∧ Completed true s t :=
  finishInhibit_wroteSpecialInc (s.sameButSpecials_writeSpecial r v) (s.special_writeSpecial_self v h)
    fun _ hq => s.special_writeSpecial_of_ne v hq

/-- Settles O46: SR takes the longword under its mask, the others take it as it is. -/
theorem controlRegisterLoads : Obligations.ControlRegisterLoads := by
  rintro s m _ rfl
  exact ⟨loadLong_accesses rfl rfl (finishInhibit_writeSrInc s m _ _),
    loadLong_accesses rfl rfl (finishInhibit_writeSpecialInc s (r := .gbr) m _ _ nofun),
    loadLong_accesses rfl rfl (finishInhibit_writeSpecialInc s (r := .vbr) m _ _ nofun),
    loadLong_accesses rfl rfl (finishInhibit_writeSpecialInc s (r := .mach) m _ _ nofun),
    loadLong_accesses rfl rfl (finishInhibit_writeSpecialInc s (r := .macl) m _ _ nofun),
    loadLong_accesses rfl rfl (finishInhibit_writeSpecialInc s (r := .pr) m _ _ nofun)⟩

/-- Settles O47: the six stores differ only in the register stored. -/
theorem controlRegisterStores : Obligations.ControlRegisterStores := by
  rintro s n _ hm rfl
  exact ⟨rfl, storeLong_accesses rfl rfl (storeSystemDec_stored hm),
    storeLong_accesses rfl rfl (storeSystemDec_stored hm), storeLong_accesses rfl rfl (storeSystemDec_stored hm),
    storeLong_accesses rfl rfl (storeSystemDec_stored hm), storeLong_accesses rfl rfl (storeSystemDec_stored hm),
    storeLong_accesses rfl rfl (storeSystemDec_stored hm)⟩

/-! ### Returning from an exception (R288) -/

/-- What a return from an exception does when both pops complete. -/
theorem returnFromException_of_readable {s : State} (hpc : s.Readable 4 (s.reg spNum))
    (hsr : s.Readable 4 (s.reg spNum + 4)) :
    returnFromException s = delayedBranch (s.longAt 1 (s.reg spNum))
      ((s.setReg spNum (s.reg spNum + 8)).writeSr (s.longAt 2 (s.reg spNum + 4))) := by
  rw [returnFromException, State.loadLong_of_readable hpc]
  simp only [State.loadLong_of_readable hsr]

/-- A delayed branch that also loads SR and sets one general register. -/
theorem delayedBranch_setReg_writeSr (s : State) (target p v : Word) (n : RegNum) :
    ∃ t, delayedBranch target ((s.setReg n p).writeSr v) = .next t ∧
      t.pc = s.pc + 2 ∧ t.slot = .pending target ∧ t.sr = v &&& srWriteMask s.params ∧ t.reg n = p ∧
      Frame [n] [] [] 0xFFFFFFFF s t ∧ MemKept s t ∧ t.inhibit = false ∧ t.proc = s.proc :=
  ⟨_, rfl, rfl, rfl, rfl, State.reg_setReg_self s n p,
    (((Frame.refl s).setReg (by simp) p).writeSr v).continueAt (s.pc + 2) (.pending target) false, memKept_refl s,
    rfl, rfl⟩

/-- Settles O50: outside a slot RTE is a delayed branch after two pops; in one it is illegal (R243), and its first pop
fails where R15 is misaligned (R413).  `returnFromException` is already the name of the model's operation. -/
theorem rteReturnsFromException : Obligations.ReturnFromException := fun s =>
  ⟨fun hpc hsr => branches_of_guardSlot rfl rfl fun _ =>
      returnFromException_of_readable hpc hsr ▸ delayedBranch_setReg_writeSr s _ _ _ spNum,
    fun hs hmis => exec_of_firstAccess_error_rewritesPc (i := .rte) rfl hs rfl
      (State.accessError_of_misaligned hmis)⟩

/-! ### RTE after an exception entry (R417) -/

theorem sub_eight_add_four (a : Word) : a - 8 + 4 = a - 4 := by bv_omega

/-- Loading a legal SR under its mask keeps it whole. -/
theorem State.srLegal.and_srWriteMask {s : State} (h : s.srLegal) : s.sr &&& srWriteMask s.params = s.sr := by
  ext j hj
  have hj' := congrArg (fun w : Word => w[j]) h
  simp only [BitVec.getElem_and, BitVec.getElem_not] at hj' ⊢
  grind

/-- Settles O51: the two longwords that RTE pops are those that the entry has pushed below the old R15, and outside R15
and SR neither changes a register. -/
theorem entryThenReturnRestores : Obligations.EntryThenReturnRestores := by
  intro s t vector stackedPc level hinv hready hramSr hramPc hentry
  obtain ⟨t', hentry', took⟩ := enterException_took (stackedPc := stackedPc) (level := level) hinv.memory hready
  obtain rfl : t' = t := by simpa using hentry'.symm.trans hentry
  obtain ⟨hwSr, hwPc, -⟩ := hready
  have hspPc : t'.reg spNum = s.reg spNum - 8 := took.sp
  have hspSr : t'.reg spNum + 4 = s.reg spNum - 4 := by rw [hspPc, sub_eight_add_four]
  have hreturn := (rteReturnsFromException t').1 (hspPc ▸ hwPc.1.of_params took.frame.params)
    (hspSr ▸ hwSr.1.of_params took.frame.params)
  obtain ⟨u, hu, -, hslot, hsr, hsp, hframe, hmem, -, -⟩ := hreturn.completes took.slot
  refine ⟨u, hu, ?_, ?_, fun r => ?_, fun r => ?_, fun r => ?_, fun k b hb => ?_⟩
  · rw [hslot, hspPc, took.savedPc 1 hramPc]
  · rw [hsr, hspSr, took.savedSr 2 hramSr, took.frame.params, hinv.sr.and_srWriteMask]
  · by_cases hr : r = spNum
    · rw [hr, hsp, hspPc, BitVec.sub_add_cancel]
    · have hr' : r ∉ [spNum] := by simpa using hr
      rw [hframe.regs r hr', took.frame.regs r hr']
  · rw [hframe.fregs r (by simp), took.frame.fregs r (by simp)]
  · rw [hframe.specials r (by simp), took.frame.specials r (by simp)]
  · rw [hmem.1 k b, took.memory k b hb]

end Sys2Proof.Machine
end

section
/-! PROOFS. Floating-point moves (46_floating_point): the constants and copies between registers, and the FMOV forms
that access memory, all under the guard of a running FPU. -/

namespace Sys2Proof.Machine

/-- A write of one floating-point register that the frame lets change. -/
theorem Frame.setFreg {regs : List RegNum} {fregs : List FRegNum} {specials : List Special} {bits : Word}
    {s w : State} (h : Frame regs fregs specials bits s w) {n : FRegNum} (hn : n ∈ fregs) (v : Word) :
    Frame regs fregs specials bits s (w.setFreg n v) :=
  { h with
    fregs := fun r hr => (w.freg_setFreg_of_ne v (ne_of_mem_of_not_mem hn hr).symm).trans (h.fregs r hr)
    specials := fun r hr => by cases r <;> exact h.specials _ hr }

/-- A code whose instruction runs under the guard of the FPU means what the guarded part does. -/
theorem means_of_guardFpu {code : Half} {i : Instr} {s : State} {r : Result} {P : State → Prop}
    (hs : s.fpuStopped = false) (hc : encode i = code) (hi : exec i s = guardFpu s r) (h : ∃ t, r = .next t ∧ P t) :
    Means code i s P :=
  means_of_encode hc (completes_of_exec_eq (hi.trans (guardFpu_of_running r hs)) h)

/-- A copy into FPUL. -/
theorem finish_wroteFpul (s : State) (v : Word) :
    ∃ t, finish (s.writeSpecial .fpul v) = .next t ∧ WroteSpecial .fpul v false s t :=
  finish_wroteSpecial (s.sameButSpecials_writeSpecial .fpul v) rfl fun _ hq => s.special_writeSpecial_of_ne v hq

/-- A load into FRn with the update of its pointer. -/
theorem finish_setFreg_setReg (s : State) (n : FRegNum) (v : Word) (m : RegNum) (p : Word) :
    ∃ t, finish ((s.setFreg n v).setReg m p) = .next t ∧
      t.freg n = v ∧ t.reg m = p ∧ Frame [m] [n] [] 0 s t ∧ MemKept s t ∧ Completed false s t :=
  ⟨_, rfl, s.freg_setFreg_self n v, (s.setFreg n v).reg_setReg_self m p,
    (((Frame.refl s).setFreg (.head _) v).setReg (.head _) p).advance, memKept_refl s, ⟨rfl, rfl, rfl, rfl⟩⟩

/-- Settles O52: five forms end with one write of FRn or FPUL; the others are the load and the store of a longword of
40_data_transfer with a floating-point register in place of the general one. -/
theorem floatMoves : Obligations.FloatMoves := fun s m n hs hm =>
  ⟨means_of_guardFpu hs rfl rfl (finish_wroteFreg n _ s), means_of_guardFpu hs rfl rfl (finish_wroteFreg n _ s),
    means_of_guardFpu hs rfl rfl (finish_wroteFpul s _), means_of_guardFpu hs rfl rfl (finish_wroteFreg n _ s),
    means_of_guardFpu hs rfl rfl (finish_wroteFreg n _ s),
    loadLong_accesses rfl (guardFpu_of_running _ hs) (finish_wroteFreg n _ s),
    loadLong_accesses rfl (guardFpu_of_running _ hs) (finish_setFreg_setReg s n _ m _),
    loadLong_accesses rfl (guardFpu_of_running _ hs) (finish_wroteFreg n _ s),
    storeLong_accesses rfl (guardFpu_of_running _ hs) (storeLongFrom_stored hm),
    storeLong_accesses rfl (guardFpu_of_running _ hs) (storeLongDec_stored hm),
    storeLong_accesses rfl (guardFpu_of_running _ hs) (storeLongFrom_stored hm)⟩

end Sys2Proof.Machine
end

section
/-! PROOFS. Single-precision patterns as numbers (46_floating_point section 1): sign, exponent and fraction of a pattern,
the order of magnitudes, and truncation to the format (R318). -/

namespace Sys2Proof.Machine

/-! ### Sign, exponent and fraction -/

theorem fpFraction_eq (v : Word) : fpFraction v = v.toNat % 2 ^ 23 := by
  rw [fpFraction, BitVec.extractLsb'_toNat, Nat.shiftRight_zero]

theorem fpSign_eq (v : Word) : fpSign v = decide (2 ^ 31 ≤ v.toNat) := BitVec.msb_eq_decide v

/-- A pattern without its sign is its exponent followed by its fraction. -/
theorem toNat_mod_eq (v : Word) : v.toNat % 2 ^ 31 = fpExponent v * 2 ^ 23 + fpFraction v := by
  rw [fpExponent_eq, fpFraction_eq]
  omega

theorem fpFraction_lt (v : Word) : fpFraction v < 2 ^ 23 := (v.extractLsb' 0 23).isLt

/-- The pattern of a sign, a biased exponent and a fraction (R311), as `fpRz` writes it. -/
def fpPattern (sign : Bool) (exponent fraction : Nat) : Word :=
  fpZero sign ||| BitVec.ofNat 32 exponent <<< 23 ||| BitVec.ofNat 32 fraction

section Pattern

variable (sign : Bool) {exponent fraction : Nat}

theorem fpZero_toNat : (fpZero sign).toNat = 2 ^ 31 * sign.toNat := by cases sign <;> rfl

theorem fpPattern_toNat (he : exponent < 2 ^ 8) (hf : fraction < 2 ^ 23) :
    (fpPattern sign exponent fraction).toNat = 2 ^ 31 * sign.toNat + (2 ^ 23 * exponent + fraction) := by
  have hshift : exponent <<< 23 % 2 ^ 32 = 2 ^ 23 * exponent := by rw [Nat.shiftLeft_eq]; omega
  have hlow : 2 ^ 23 * exponent + fraction < 2 ^ 31 := by omega
  rw [fpPattern, BitVec.or_assoc, BitVec.toNat_or, BitVec.toNat_or, BitVec.toNat_shiftLeft, BitVec.toNat_ofNat,
    BitVec.toNat_ofNat, Nat.mod_eq_of_lt (by omega : exponent < 2 ^ 32),
    Nat.mod_eq_of_lt (by omega : fraction < 2 ^ 32), hshift, ← Nat.two_pow_add_eq_or_of_lt hf, fpZero_toNat,
    ← Nat.two_pow_add_eq_or_of_lt hlow]

theorem fpSign_fpPattern (he : exponent < 2 ^ 8) (hf : fraction < 2 ^ 23) :
    fpSign (fpPattern sign exponent fraction) = sign := by
  rw [fpSign_eq, fpPattern_toNat sign he hf]
  cases sign
  · simp only [Bool.toNat_false, decide_eq_false_iff_not]; omega
  · simp only [Bool.toNat_true, decide_eq_true_iff]; omega

theorem fpExponent_fpPattern (he : exponent < 2 ^ 8) (hf : fraction < 2 ^ 23) :
    fpExponent (fpPattern sign exponent fraction) = exponent := by
  rw [fpExponent_eq, fpPattern_toNat sign he hf]
  omega

theorem fpFraction_fpPattern (he : exponent < 2 ^ 8) (hf : fraction < 2 ^ 23) :
    fpFraction (fpPattern sign exponent fraction) = fraction := by
  rw [fpFraction_eq, fpPattern_toNat sign he hf]
  omega

end Pattern

/-! ### Magnitudes -/

theorem fpMag_of_zero_exponent {v : Word} (h : fpExponent v = 0) : fpMag v = 0 := if_pos h

theorem fpMag_of_pos_exponent {v : Word} (h : 1 ≤ fpExponent v) :
    fpMag v = (2 ^ 23 + fpFraction v) * 2 ^ (fpExponent v - 1) := if_neg (by omega)

/-- The leading bit of a magnitude is the hidden bit of the format. -/
theorem two_pow_le_fpMag {v : Word} (h : 1 ≤ fpExponent v) : 2 ^ (fpExponent v + 22) ≤ fpMag v := by
  rw [fpMag_of_pos_exponent h, show fpExponent v + 22 = 23 + (fpExponent v - 1) by omega, pow_add]
  exact Nat.mul_le_mul_right _ (Nat.le_add_right _ _)

theorem fpMag_lt_two_pow (v : Word) : fpMag v < 2 ^ (fpExponent v + 23) := by
  by_cases h : fpExponent v = 0
  · rw [fpMag_of_zero_exponent h]
    exact Nat.two_pow_pos _
  · rw [fpMag_of_pos_exponent (by omega), show fpExponent v + 23 = 24 + (fpExponent v - 1) by omega, pow_add]
    have := fpFraction_lt v
    exact Nat.mul_lt_mul_of_pos_right (by omega) (Nat.two_pow_pos _)

theorem fpMag_pos {v : Word} (h : FpNorm v) : 0 < fpMag v :=
  (Nat.two_pow_pos _).trans_le (two_pow_le_fpMag h.1)

/-- The patterns of one sign are ordered as their magnitudes (R311). -/
theorem fpMag_lt_fpMag {v w : Word} (hw : 1 ≤ fpExponent w) (h : v.toNat % 2 ^ 31 < w.toNat % 2 ^ 31) :
    fpMag v < fpMag w := by
  rw [toNat_mod_eq, toNat_mod_eq] at h
  have hv := fpFraction_lt v
  have hw' := fpFraction_lt w
  rcases (by omega : fpExponent v < fpExponent w ∨ fpExponent v = fpExponent w ∧ fpFraction v < fpFraction w)
    with hlt | ⟨heq, hfrac⟩
  · calc fpMag v < 2 ^ (fpExponent v + 23) := fpMag_lt_two_pow v
      _ ≤ 2 ^ (fpExponent w + 22) := Nat.pow_le_pow_right (by decide) (by omega)
      _ ≤ fpMag w := two_pow_le_fpMag hw
  · rw [fpMag_of_pos_exponent (heq ▸ hw), fpMag_of_pos_exponent hw, heq]
    exact Nat.mul_lt_mul_of_pos_right (by omega) (Nat.two_pow_pos _)

theorem fpMag_congr {v w : Word} (h : v.toNat % 2 ^ 31 = w.toNat % 2 ^ 31) : fpMag v = fpMag w := by
  have he : fpExponent v = fpExponent w := by rw [fpExponent_eq, fpExponent_eq]; omega
  have hf : fpFraction v = fpFraction w := by rw [fpFraction_eq, fpFraction_eq]; omega
  rw [fpMag, fpMag, he, hf]

theorem fpMag_le_fpMag_iff {v w : Word} (hw : 1 ≤ fpExponent w) :
    fpMag v ≤ fpMag w ↔ v.toNat % 2 ^ 31 ≤ w.toNat % 2 ^ 31 := by
  rcases Nat.lt_trichotomy (v.toNat % 2 ^ 31) (w.toNat % 2 ^ 31) with h | h | h
  · exact iff_of_true (fpMag_lt_fpMag hw h).le h.le
  · exact iff_of_true (fpMag_congr h).le h.le
  · have hv : 1 ≤ fpExponent v := by rw [toNat_mod_eq, toNat_mod_eq] at h; have := fpFraction_lt v; omega
    exact iff_of_false (fpMag_lt_fpMag hv h).not_ge h.not_ge

theorem fpMag_lt_fpMag_iff {v w : Word} (hw : 1 ≤ fpExponent w) :
    fpMag v < fpMag w ↔ v.toNat % 2 ^ 31 < w.toNat % 2 ^ 31 := by
  refine ⟨fun h => ?_, fpMag_lt_fpMag hw⟩
  have hne : v.toNat % 2 ^ 31 ≠ w.toNat % 2 ^ 31 := fun he => h.ne (fpMag_congr he)
  exact lt_of_le_of_ne ((fpMag_le_fpMag_iff hw).1 h.le) hne

/-! ### Truncation (R318) -/

/-- With `k` bits cut off that leave at least 24, no magnitude of the format lies between the truncated and the exact
one. -/
theorem fpMag_le_truncated {v : Word} {units k : Nat} (hv : fpMag v ≤ units) (hk : 2 ^ (k + 23) ≤ units) :
    fpMag v ≤ units / 2 ^ k * 2 ^ k := by
  by_cases he : k + 1 ≤ fpExponent v
  · obtain ⟨c, hc⟩ : 2 ^ k ∣ fpMag v := by
      rw [fpMag_of_pos_exponent (by omega)]
      exact Dvd.dvd.mul_left (Nat.pow_dvd_pow 2 (by omega)) _
    rw [hc, mul_comm] at hv ⊢
    exact Nat.mul_le_mul_right _ ((Nat.le_div_iff_mul_le (Nat.two_pow_pos k)).2 hv)
  · calc fpMag v ≤ 2 ^ (fpExponent v + 23) := (fpMag_lt_two_pow v).le
      _ ≤ 2 ^ (23 + k) := Nat.pow_le_pow_right (by decide) (by omega)
      _ = 2 ^ 23 * 2 ^ k := pow_add ..
      _ ≤ units / 2 ^ k * 2 ^ k := by
        refine Nat.mul_le_mul_right _ ((Nat.le_div_iff_mul_le (Nat.two_pow_pos k)).2 ?_)
        rwa [← pow_add, Nat.add_comm]

/-- The 24 leading bits of a number that has as many. -/
theorem leadingBits_bounds {units : Nat} (h : 2 ^ 23 ≤ units) :
    2 ^ 23 ≤ units / 2 ^ (units.log2 - 23) ∧ units / 2 ^ (units.log2 - 23) < 2 ^ 24 := by
  have hne : units ≠ 0 := by omega
  have htop : 23 ≤ units.log2 := (Nat.le_log2 hne).2 h
  have hpos : 0 < 2 ^ (units.log2 - 23) := Nat.two_pow_pos _
  constructor
  · rw [Nat.le_div_iff_mul_le hpos, ← pow_add, Nat.add_sub_cancel' htop]
    exact Nat.log2_self_le hne
  · rw [Nat.div_lt_iff_lt_mul hpos, ← pow_add, show 24 + (units.log2 - 23) = units.log2 + 1 by omega]
    exact Nat.lt_log2_self

section Truncation

variable (sign : Bool) {num den units : Nat}

theorem fpRz_of_small (h : num / den < 2 ^ 23) : fpRz sign num den = fpZero sign := if_pos h

/-- Above the range: the largest finite number. -/
theorem fpRz_of_large (hu : num / den = units) (hlo : 2 ^ 23 ≤ units) (htop : 276 < units.log2) :
    fpRz sign num den = fpPattern sign 254 (2 ^ 23 - 1) := by
  simp only [fpRz, hu]
  rw [if_neg (by omega), if_pos htop]
  cases sign <;> rfl

/-- Within the range: the 24 leading bits. -/
theorem fpRz_of_normal (hu : num / den = units) (hlo : 2 ^ 23 ≤ units) (htop : ¬276 < units.log2) :
    fpRz sign num den = fpPattern sign (units.log2 - 22) (units / 2 ^ (units.log2 - 23) - 2 ^ 23) := by
  simp only [fpRz, hu]
  rw [if_neg (by omega), if_neg htop]
  rfl

/-- Within the range the result is the exact magnitude with all but its 24 leading bits cleared. -/
theorem fpMag_fpRz_of_normal (hu : num / den = units) (hlo : 2 ^ 23 ≤ units) (htop : ¬276 < units.log2) :
    fpMag (fpRz sign num den) = units / 2 ^ (units.log2 - 23) * 2 ^ (units.log2 - 23) := by
  obtain ⟨hmin, hmax⟩ := leadingBits_bounds hlo
  have hlog : 23 ≤ units.log2 := (Nat.le_log2 (by omega)).2 hlo
  have he : units.log2 - 22 < 2 ^ 8 := by omega
  have hf : units / 2 ^ (units.log2 - 23) - 2 ^ 23 < 2 ^ 23 := by omega
  rw [fpRz_of_normal sign hu hlo htop, fpMag_of_pos_exponent (by rw [fpExponent_fpPattern sign he hf]; omega),
    fpExponent_fpPattern sign he hf, fpFraction_fpPattern sign he hf, Nat.add_sub_cancel' hmin]
  rfl

/-- A result that is not flushed to zero is a normalized number of the sign. -/
theorem fpRz_norm (hlo : 2 ^ 23 ≤ num / den) :
    fpSign (fpRz sign num den) = sign ∧ FpNorm (fpRz sign num den) := by
  obtain ⟨e, f, he1, he2, hf, hw⟩ : ∃ e f, 1 ≤ e ∧ e ≤ 254 ∧ f < 2 ^ 23 ∧ fpRz sign num den = fpPattern sign e f := by
    obtain ⟨hmin, hmax⟩ := leadingBits_bounds hlo
    have hlog : 23 ≤ (num / den).log2 := (Nat.le_log2 (by omega)).2 hlo
    by_cases htop : 276 < (num / den).log2
    · exact ⟨254, 2 ^ 23 - 1, by decide, by decide, by decide, fpRz_of_large sign rfl hlo htop⟩
    · exact ⟨_, _, by omega, by omega, by omega, fpRz_of_normal sign rfl hlo htop⟩
  have he : e < 2 ^ 8 := by omega
  rw [hw, FpNorm, fpSign_fpPattern sign he hf, fpExponent_fpPattern sign he hf]
  exact ⟨rfl, he1, he2⟩

/-- No normalized number exceeds the one of the largest exponent and fraction. -/
theorem fpMag_le_largest {v : Word} (h : FpNorm v) : fpMag v ≤ fpMag (fpPattern sign 254 (2 ^ 23 - 1)) := by
  have hw := fpPattern_toNat sign (exponent := 254) (fraction := 2 ^ 23 - 1) (by decide) (by decide)
  rw [fpMag_le_fpMag_iff (by rw [fpExponent_fpPattern sign] <;> decide), hw, toNat_mod_eq]
  have hv := fpFraction_lt v
  obtain ⟨-, he⟩ := h
  omega

/-- The largest finite number lies below every magnitude whose leading bit is above the range. -/
theorem fpMag_largest_le (htop : 276 < units.log2) : fpMag (fpPattern sign 254 (2 ^ 23 - 1)) ≤ units := by
  have hne : units ≠ 0 := by rintro rfl; simp at htop
  calc fpMag (fpPattern sign 254 (2 ^ 23 - 1)) ≤ 2 ^ (fpExponent (fpPattern sign 254 (2 ^ 23 - 1)) + 23) :=
        (fpMag_lt_two_pow _).le
    _ ≤ 2 ^ units.log2 :=
        Nat.pow_le_pow_right (by decide) (by rw [fpExponent_fpPattern sign (by decide) (by decide)]; omega)
    _ ≤ units := Nat.log2_self_le hne

/-- The result does not exceed the exact magnitude. -/
theorem fpMag_fpRz_le (hlo : 2 ^ 23 ≤ num / den) : fpMag (fpRz sign num den) ≤ num / den := by
  by_cases htop : 276 < (num / den).log2
  · rw [fpRz_of_large sign rfl hlo htop]
    exact fpMag_largest_le sign htop
  · rw [fpMag_fpRz_of_normal sign rfl hlo htop]
    exact Nat.div_mul_le_self _ _

/-- No normalized number that does not exceed the exact magnitude is larger than the result. -/
theorem fpMag_le_fpMag_fpRz {v : Word} (hlo : 2 ^ 23 ≤ num / den) (hn : FpNorm v) (hv : fpMag v ≤ num / den) :
    fpMag v ≤ fpMag (fpRz sign num den) := by
  by_cases htop : 276 < (num / den).log2
  · rw [fpRz_of_large sign rfl hlo htop]
    exact fpMag_le_largest sign hn
  · rw [fpMag_fpRz_of_normal sign rfl hlo htop]
    have hne : num / den ≠ 0 := by omega
    have hlog : 23 ≤ (num / den).log2 := (Nat.le_log2 hne).2 hlo
    exact fpMag_le_truncated hv (by rw [Nat.sub_add_cancel hlog]; exact Nat.log2_self_le hne)

end Truncation

/-- Settles O59: below 2^23 units the result is a zero; from there on it is the exact magnitude without its low bits, or
the largest finite number. -/
theorem floatTruncation : Obligations.FloatTruncation := by
  intro sign num den hden
  refine ⟨fun hsmall => fpRz_of_small sign ((Nat.div_lt_iff_lt_mul hden).2 hsmall), fun hlarge => ?_⟩
  have hlo : 2 ^ 23 ≤ num / den := (Nat.le_div_iff_mul_le hden).2 hlarge
  obtain ⟨hsign, hnorm⟩ := fpRz_norm sign hlo
  exact ⟨hsign, hnorm, (Nat.le_div_iff_mul_le hden).1 (fpMag_fpRz_le sign hlo), fun v hv hle =>
    fpMag_le_fpMag_fpRz sign hlo hv ((Nat.le_div_iff_mul_le hden).2 hle)⟩

end Sys2Proof.Machine
end

section
/-! PROOFS. FADD, FSUB, FMUL and FDIV by the classes of their operands (R331, R350, R347, R334): turning the sign of a
pattern, and one lemma per entry of each table. -/

namespace Sys2Proof.Machine

/-! ### A pattern with its sign turned -/

section Flip

variable (v : Word)

theorem toNat_flip_mod : (v ^^^ 0x80000000).toNat % 2 ^ 31 = v.toNat % 2 ^ 31 := by
  rw [BitVec.toNat_xor, Nat.xor_mod_two_pow]
  exact Nat.xor_zero _

theorem fpAbs_flip : fpAbs (v ^^^ 0x80000000) = fpAbs v :=
  BitVec.eq_of_toNat_eq (by rw [fpAbs_toNat, fpAbs_toNat, toNat_flip_mod])

theorem fpSign_flip : fpSign (v ^^^ 0x80000000) = !fpSign v := by
  rw [fpSign, fpSign, BitVec.msb_xor]
  exact Bool.xor_true _

theorem fpIsZero_flip : fpIsZero (v ^^^ 0x80000000) = fpIsZero v := by rw [fpIsZero, fpIsZero, fpAbs_flip]

theorem fpIsInf_flip : fpIsInf (v ^^^ 0x80000000) = fpIsInf v := by rw [fpIsInf, fpIsInf, fpAbs_flip]

theorem fpIsNan_flip : fpIsNan (v ^^^ 0x80000000) = fpIsNan v := by rw [fpIsNan, fpIsNan, fpAbs_flip]

theorem getLsbD_flip : (v ^^^ 0x80000000).getLsbD 22 = v.getLsbD 22 := by
  rw [BitVec.getLsbD_xor]
  exact Bool.xor_false _

theorem fpIsSNan_flip : fpIsSNan (v ^^^ 0x80000000) = fpIsSNan v := by
  rw [fpIsSNan, fpIsSNan, fpIsNan_flip, getLsbD_flip]

theorem fpIsQNan_flip : fpIsQNan (v ^^^ 0x80000000) = fpIsQNan v := by
  rw [fpIsQNan, fpIsQNan, fpIsNan_flip, getLsbD_flip]

theorem fpVal_flip : fpVal (v ^^^ 0x80000000) = -fpVal v := by
  rw [fpVal, fpVal, fpSign_flip, fpMag_congr (toNat_flip_mod v)]
  cases fpSign v <;> simp

theorem fpNorm_flip : FpNorm (v ^^^ 0x80000000) ↔ FpNorm v := by
  rw [fpNorm_iff, fpNorm_iff, fpIsZero_flip, fpIsInf_flip, fpIsNan_flip]

end Flip

/-- FSUB is FADD of the subtrahend with its sign turned, NaNs included (R350). -/
theorem fpSub_eq_fpAdd (a b : Word) : fpSub a b = fpAdd a (b ^^^ 0x80000000) := by
  simp only [fpSub, fpAdd, fpNanCheck, fpIsSNan_flip, fpIsQNan_flip]

/-! ### Classes -/

/-- An infinity is one of two patterns. -/
theorem eq_fpInf {v : Word} (h : fpIsInf v = true) : v = fpInf (fpSign v) := by
  have hmod := (fpIsInf_iff v).1 h
  have hlt := v.isLt
  apply BitVec.eq_of_toNat_eq
  rw [fpSign_eq]
  by_cases hs : 2 ^ 31 ≤ v.toNat
  · rw [decide_eq_true hs]
    show v.toNat = 0xFF800000
    omega
  · rw [decide_eq_false hs]
    show v.toNat = 0x7F800000
    omega

theorem flip_of_inf {v : Word} (h : fpIsInf v = true) : v ^^^ 0x80000000 = fpInf (!fpSign v) := by
  rw [← fpSign_flip]
  exact eq_fpInf ((fpIsInf_flip v).trans h)

/-! ### NaN operands (R317) -/

section Operands

variable {a b : Word}

theorem fpNanCheck_of_snan (h : fpIsSNan a = true ∨ fpIsSNan b = true) (r : FpResult) :
    fpNanCheck a b r = .invalid :=
  if_pos (Bool.or_eq_true_iff.2 h)

theorem fpNanCheck_of_qnan (ha : fpIsSNan a = false) (hb : fpIsSNan b = false)
    (h : fpIsQNan a = true ∨ fpIsQNan b = true) (r : FpResult) : fpNanCheck a b r = .value fpQNan := by
  rw [fpNanCheck, ha, hb]
  exact if_pos (Bool.or_eq_true_iff.2 h)

theorem fpNanCheck_of_not_nan (ha : fpIsNan a = false) (hb : fpIsNan b = false) (r : FpResult) :
    fpNanCheck a b r = r := by
  simp only [fpNanCheck, fpIsSNan_of_not_nan ha, fpIsSNan_of_not_nan hb, fpIsQNan_of_not_nan ha,
    fpIsQNan_of_not_nan hb]
  rfl

theorem fpNanCheck_comm (a b : Word) (r : FpResult) : fpNanCheck a b r = fpNanCheck b a r := by
  simp only [fpNanCheck, Bool.or_comm]

/-! ### FADD (R331) -/

theorem fpAdd_of_not_nan (ha : fpIsNan a = false) (hb : fpIsNan b = false) : fpAdd a b = fpAddNumbers a b :=
  fpNanCheck_of_not_nan ha hb _

theorem fpAdd_inf_inf_opposite (ha : fpIsInf a = true) (hb : fpIsInf b = true) (hs : fpSign a ≠ fpSign b) :
    fpAdd a b = .invalid := by
  rw [fpAdd_of_not_nan (fpIsInf_excludes ha).2 (fpIsInf_excludes hb).2]
  simp [fpAddNumbers, ha, hb, hs]

theorem fpAdd_inf_inf_same (ha : fpIsInf a = true) (hb : fpIsInf b = true) (hs : fpSign a = fpSign b) :
    fpAdd a b = .value a := by
  have h : fpAddNumbers a b = .value (fpInf (fpSign a)) := by simp [fpAddNumbers, ha, hb, hs]
  rw [fpAdd_of_not_nan (fpIsInf_excludes ha).2 (fpIsInf_excludes hb).2, h, ← eq_fpInf ha]

theorem fpAdd_inf_finite (ha : fpIsInf a = true) (hb : fpIsInf b = false) (hn : fpIsNan b = false) :
    fpAdd a b = .value a := by
  have h : fpAddNumbers a b = .value (fpInf (fpSign a)) := by simp [fpAddNumbers, ha, hb]
  rw [fpAdd_of_not_nan (fpIsInf_excludes ha).2 hn, h, ← eq_fpInf ha]

theorem fpAdd_zero_zero (ha : fpIsZero a = true) (hb : fpIsZero b = true) :
    fpAdd a b = .value (fpZero (fpSign a && fpSign b)) := by
  obtain ⟨hai, han⟩ := fpIsZero_excludes ha
  obtain ⟨hbi, hbn⟩ := fpIsZero_excludes hb
  rw [fpAdd_of_not_nan han hbn]
  simp [fpAddNumbers, ha, hb, hai, hbi]

theorem fpAdd_norm_zero (ha : FpNorm a) (hb : fpIsZero b = true) : fpAdd a b = .value a := by
  obtain ⟨haz, hai, han⟩ := (fpNorm_iff a).1 ha
  obtain ⟨hbi, hbn⟩ := fpIsZero_excludes hb
  rw [fpAdd_of_not_nan han hbn]
  simp [fpAddNumbers, haz, hai, hb, hbi]

theorem fpAdd_norm_norm (ha : FpNorm a) (hb : FpNorm b) :
    fpAdd a b = .value (fpRzInt (fpVal a + fpVal b) 1) := by
  obtain ⟨haz, hai, han⟩ := (fpNorm_iff a).1 ha
  obtain ⟨hbz, hbi, hbn⟩ := (fpNorm_iff b).1 hb
  rw [fpAdd_of_not_nan han hbn]
  simp [fpAddNumbers, haz, hai, hbz, hbi]

theorem fpAddNumbers_comm (a b : Word) : fpAddNumbers a b = fpAddNumbers b a := by
  unfold fpAddNumbers
  cases fpIsInf a with
  | true =>
    cases fpIsInf b with
    | true => by_cases hs : fpSign a = fpSign b <;> simp [hs, Ne.symm]
    | false => simp
  | false =>
    cases fpIsInf b with
    | true => simp
    | false => cases fpIsZero a <;> cases fpIsZero b <;> simp [Bool.and_comm, Int.add_comm]

/-- Addition commutes, the classes of its operands included. -/
theorem fpAdd_comm (a b : Word) : fpAdd a b = fpAdd b a := by
  rw [fpAdd, fpAdd, fpNanCheck_comm, fpAddNumbers_comm]

theorem fpAdd_finite_inf (ha : fpIsInf a = false) (hn : fpIsNan a = false) (hb : fpIsInf b = true) :
    fpAdd a b = .value b :=
  (fpAdd_comm a b).trans (fpAdd_inf_finite hb ha hn)

theorem fpAdd_zero_norm (ha : fpIsZero a = true) (hb : FpNorm b) : fpAdd a b = .value b :=
  (fpAdd_comm a b).trans (fpAdd_norm_zero hb ha)

/-! ### FMUL (R347) -/

theorem fpMul_comm (a b : Word) : fpMul a b = fpMul b a := by
  have hinvalid : (fpIsInf a && fpIsZero b || fpIsZero a && fpIsInf b) =
      (fpIsInf b && fpIsZero a || fpIsZero b && fpIsInf a) := by
    rw [Bool.or_comm, Bool.and_comm (fpIsZero a), Bool.and_comm (fpIsInf a)]
  simp only [fpMul, fpNanCheck_comm a b, hinvalid, Bool.xor_comm (fpSign a), Bool.or_comm (fpIsInf a),
    Bool.or_comm (fpIsZero a), Nat.mul_comm (fpMag a)]

theorem fpMul_inf_zero (ha : fpIsInf a = true) (hb : fpIsZero b = true) : fpMul a b = .invalid := by
  rw [fpMul, fpNanCheck_of_not_nan (fpIsInf_excludes ha).2 (fpIsZero_excludes hb).2]
  simp [ha, hb]

theorem fpMul_inf_nonzero (ha : fpIsInf a = true) (hb : fpIsZero b = false) (hn : fpIsNan b = false) :
    fpMul a b = .value (fpInf (fpSign a ^^ fpSign b)) := by
  rw [fpMul, fpNanCheck_of_not_nan (fpIsInf_excludes ha).2 hn]
  simp [ha, hb, fpIsInf_excludes ha]

theorem fpMul_zero_finite (ha : fpIsZero a = true) (hb : fpIsInf b = false) (hn : fpIsNan b = false) :
    fpMul a b = .value (fpZero (fpSign a ^^ fpSign b)) := by
  rw [fpMul, fpNanCheck_of_not_nan (fpIsZero_excludes ha).2 hn]
  simp [ha, hb, fpIsZero_excludes ha]

theorem fpMul_zero_inf (ha : fpIsZero a = true) (hb : fpIsInf b = true) : fpMul a b = .invalid :=
  (fpMul_comm a b).trans (fpMul_inf_zero hb ha)

theorem fpMul_nonzero_inf (ha : fpIsZero a = false) (hn : fpIsNan a = false) (hb : fpIsInf b = true) :
    fpMul a b = .value (fpInf (fpSign a ^^ fpSign b)) := by
  rw [fpMul_comm, Bool.xor_comm, fpMul_inf_nonzero hb ha hn]

theorem fpMul_finite_zero (ha : fpIsInf a = false) (hn : fpIsNan a = false) (hb : fpIsZero b = true) :
    fpMul a b = .value (fpZero (fpSign a ^^ fpSign b)) := by
  rw [fpMul_comm, Bool.xor_comm, fpMul_zero_finite hb ha hn]

theorem fpMul_norm_norm (ha : FpNorm a) (hb : FpNorm b) :
    fpMul a b = .value (fpRz (fpSign a ^^ fpSign b) (fpMag a * fpMag b) (2 ^ 149)) := by
  obtain ⟨haz, hai, han⟩ := (fpNorm_iff a).1 ha
  obtain ⟨hbz, hbi, hbn⟩ := (fpNorm_iff b).1 hb
  rw [fpMul, fpNanCheck_of_not_nan han hbn]
  simp [haz, hai, hbz, hbi]

/-! ### FDIV (R334) -/

theorem fpDiv_zero_zero (ha : fpIsZero a = true) (hb : fpIsZero b = true) : fpDiv a b = .invalid := by
  rw [fpDiv, fpNanCheck_of_not_nan (fpIsZero_excludes ha).2 (fpIsZero_excludes hb).2]
  simp [ha, hb]

theorem fpDiv_inf_inf (ha : fpIsInf a = true) (hb : fpIsInf b = true) : fpDiv a b = .invalid := by
  rw [fpDiv, fpNanCheck_of_not_nan (fpIsInf_excludes ha).2 (fpIsInf_excludes hb).2]
  simp [ha, hb, fpIsInf_excludes hb]

theorem fpDiv_inf_finite (ha : fpIsInf a = true) (hb : fpIsInf b = false) (hn : fpIsNan b = false) :
    fpDiv a b = .value (fpInf (fpSign a ^^ fpSign b)) := by
  rw [fpDiv, fpNanCheck_of_not_nan (fpIsInf_excludes ha).2 hn]
  simp [ha, hb, fpIsInf_excludes ha]

theorem fpDiv_finite_inf (ha : fpIsInf a = false) (hn : fpIsNan a = false) (hb : fpIsInf b = true) :
    fpDiv a b = .value (fpZero (fpSign a ^^ fpSign b)) := by
  rw [fpDiv, fpNanCheck_of_not_nan hn (fpIsInf_excludes hb).2]
  simp [ha, hb, fpIsInf_excludes hb]

theorem fpDiv_zero_norm (ha : fpIsZero a = true) (hb : FpNorm b) :
    fpDiv a b = .value (fpZero (fpSign a ^^ fpSign b)) := by
  obtain ⟨hbz, hbi, hbn⟩ := (fpNorm_iff b).1 hb
  rw [fpDiv, fpNanCheck_of_not_nan (fpIsZero_excludes ha).2 hbn]
  simp [ha, hbz, hbi, fpIsZero_excludes ha]

theorem fpDiv_norm_zero (ha : FpNorm a) (hb : fpIsZero b = true) :
    fpDiv a b = .divByZero (fpSign a ^^ fpSign b) := by
  obtain ⟨haz, hai, han⟩ := (fpNorm_iff a).1 ha
  rw [fpDiv, fpNanCheck_of_not_nan han (fpIsZero_excludes hb).2]
  simp [haz, hai, hb]

theorem fpDiv_norm_norm (ha : FpNorm a) (hb : FpNorm b) :
    fpDiv a b = .value (fpRz (fpSign a ^^ fpSign b) (fpMag a * 2 ^ 149) (fpMag b)) := by
  obtain ⟨haz, hai, han⟩ := (fpNorm_iff a).1 ha
  obtain ⟨hbz, hbi, hbn⟩ := (fpNorm_iff b).1 hb
  rw [fpDiv, fpNanCheck_of_not_nan han hbn]
  simp [haz, hai, hbz, hbi]

/-! ### The four tables -/

/-- What `fpRzInt` gives is the truncation of its argument. -/
theorem truncatesTo_fpRzInt (x : Int) {den : Nat} (h : 0 < den) : TruncatesTo (.value (fpRzInt x den)) x den :=
  ⟨_, rfl, floatTruncation _ _ _ h⟩

/-- Settles O60: each clause is one entry of the tables of FADD, FMUL and FDIV; FSUB is FADD of a pattern of the same
class and the other sign. -/
theorem floatSpecialCases : Obligations.FloatSpecialCases := by
  rintro a b _ rfl
  refine ⟨fun h => ?snan, fun ha hb h => ?qnan, fun ha hb => ?infInf, fun ha hb => ?infNorm, fun ha hb => ?normInf,
    fun ha hb => ?infZero, fun ha hb => ?zeroInf, fun ha hb => ?zeroZero, fun ha hb => ?zeroNorm,
    fun ha hb => ?normZero, fun ha hb => ?normNorm, fpAdd_comm a b, fpMul_comm a b⟩
  case snan =>
    exact ⟨fpNanCheck_of_snan h _, fpNanCheck_of_snan h _, fpNanCheck_of_snan h _, fpNanCheck_of_snan h _⟩
  case qnan =>
    exact ⟨fpNanCheck_of_qnan ha hb h _, fpNanCheck_of_qnan ha hb h _, fpNanCheck_of_qnan ha hb h _,
      fpNanCheck_of_qnan ha hb h _⟩
  all_goals rw [fpSub_eq_fpAdd]
  case infInf =>
    have hflip := (fpIsInf_flip b).trans hb
    obtain ⟨hbz, hbn⟩ := fpIsInf_excludes hb
    refine ⟨fpDiv_inf_inf ha hb, fpMul_inf_nonzero ha hbz hbn, fun hs => ⟨fpAdd_inf_inf_opposite ha hb hs, ?_⟩,
      fun hs => ⟨fpAdd_inf_inf_same ha hb hs, ?_⟩⟩
    · exact fpAdd_inf_inf_same ha hflip (by rw [fpSign_flip, Bool.eq_not]; exact hs)
    · exact fpAdd_inf_inf_opposite ha hflip (by rw [fpSign_flip, hs]; exact (Bool.not_ne_self _).symm)
  case infNorm =>
    obtain ⟨hbz, hbi, hbn⟩ := (fpNorm_iff b).1 hb
    exact ⟨fpAdd_inf_finite ha hbi hbn, fpAdd_inf_finite ha ((fpIsInf_flip b).trans hbi) ((fpIsNan_flip b).trans hbn),
      fpMul_inf_nonzero ha hbz hbn, fpDiv_inf_finite ha hbi hbn⟩
  case normInf =>
    obtain ⟨haz, hai, han⟩ := (fpNorm_iff a).1 ha
    rw [← flip_of_inf hb]
    exact ⟨fpAdd_finite_inf hai han hb, fpAdd_finite_inf hai han ((fpIsInf_flip b).trans hb),
      fpMul_nonzero_inf haz han hb, fpDiv_finite_inf hai han hb⟩
  case infZero =>
    obtain ⟨hbi, hbn⟩ := fpIsZero_excludes hb
    exact ⟨fpAdd_inf_finite ha hbi hbn, fpAdd_inf_finite ha ((fpIsInf_flip b).trans hbi) ((fpIsNan_flip b).trans hbn),
      fpMul_inf_zero ha hb, fpDiv_inf_finite ha hbi hbn⟩
  case zeroInf =>
    obtain ⟨hai, han⟩ := fpIsZero_excludes ha
    rw [← flip_of_inf hb]
    exact ⟨fpAdd_finite_inf hai han hb, fpAdd_finite_inf hai han ((fpIsInf_flip b).trans hb),
      fpMul_zero_inf ha hb, fpDiv_finite_inf hai han hb⟩
  case zeroZero =>
    obtain ⟨hbi, hbn⟩ := fpIsZero_excludes hb
    rw [← fpSign_flip]
    exact ⟨fpAdd_zero_zero ha hb, fpAdd_zero_zero ha ((fpIsZero_flip b).trans hb), fpMul_zero_finite ha hbi hbn,
      fpDiv_zero_zero ha hb⟩
  case zeroNorm =>
    obtain ⟨-, hbi, hbn⟩ := (fpNorm_iff b).1 hb
    exact ⟨fpAdd_zero_norm ha hb, fpAdd_zero_norm ha ((fpNorm_flip b).2 hb), fpMul_zero_finite ha hbi hbn,
      fpDiv_zero_norm ha hb⟩
  case normZero =>
    obtain ⟨-, hai, han⟩ := (fpNorm_iff a).1 ha
    exact ⟨fpAdd_norm_zero ha hb, fpAdd_norm_zero ha ((fpIsZero_flip b).trans hb), fpMul_finite_zero hai han hb,
      fpDiv_norm_zero ha hb⟩
  case normNorm =>
    rw [fpAdd_norm_norm ha hb, fpAdd_norm_norm ha ((fpNorm_flip b).2 hb), fpVal_flip, ← Int.sub_eq_add_neg]
    exact ⟨truncatesTo_fpRzInt _ Nat.one_pos, truncatesTo_fpRzInt _ Nat.one_pos,
      ⟨_, fpMul_norm_norm ha hb, floatTruncation _ _ _ (Nat.two_pow_pos _)⟩,
      ⟨_, fpDiv_norm_norm ha hb, floatTruncation _ _ _ (fpMag_pos hb)⟩⟩

end Operands

end Sys2Proof.Machine
end

section
/-! PROOFS. The FPU arithmetic (46_floating_point, R330 to R350): what FABS, FNEG and FMAC compute, and the outcome of the
seven instructions written to FRn and FPSCR. -/

namespace Sys2Proof.Machine

/-! ### FABS and FNEG (R330, R348) -/

theorem fpIsQNan_excludes {v : Word} (h : fpIsQNan v = true) : fpIsSNan v = false := by
  obtain ⟨hn, hq⟩ : fpIsNan v = true ∧ v.getLsbD 22 = false := by simpa [fpIsQNan] using h
  rw [fpIsSNan, hn, hq]
  rfl

theorem toNat_fpAbs_mod (v : Word) : (fpAbs v).toNat % 2 ^ 31 = v.toNat % 2 ^ 31 := by
  rw [fpAbs_toNat, Nat.mod_mod]

theorem fpSign_fpAbs (v : Word) : fpSign (fpAbs v) = false := by
  rw [fpSign_eq, fpAbs_toNat, decide_eq_false_iff_not]
  omega

theorem fpNorm_fpAbs (v : Word) : FpNorm (fpAbs v) ↔ FpNorm v := by
  have h := toNat_fpAbs_mod v
  rw [FpNorm, FpNorm, fpExponent_eq, fpExponent_eq]
  omega

theorem natAbs_fpVal (v : Word) : (fpVal v).natAbs = fpMag v := by
  rw [fpVal]
  cases fpSign v <;> simp

theorem fpVal_fpAbs (v : Word) : fpVal (fpAbs v) = (fpVal v).natAbs := by
  rw [natAbs_fpVal, fpVal, fpSign_fpAbs, fpMag_congr (toNat_fpAbs_mod v)]
  rfl

section Unary

variable {v : Word}

theorem unary_of_snan (h : fpIsSNan v = true) : fpAbsolute v = .invalid ∧ fpNegate v = .invalid :=
  ⟨if_pos h, if_pos h⟩

theorem unary_of_qnan (h : fpIsQNan v = true) : fpAbsolute v = .value fpQNan ∧ fpNegate v = .value fpQNan := by
  simp [fpAbsolute, fpNegate, fpIsQNan_excludes h, h]

theorem unary_of_zero (h : fpIsZero v = true) :
    fpAbsolute v = .value 0 ∧ fpNegate v = .value (fpZero (!fpSign v)) := by
  have hn := (fpIsZero_excludes h).2
  simp [fpAbsolute, fpNegate, fpIsSNan_of_not_nan hn, fpIsQNan_of_not_nan hn, h]

theorem unary_of_nonzero (hn : fpIsNan v = false) (hz : fpIsZero v = false) :
    fpAbsolute v = .value (fpAbs v) ∧ fpNegate v = .value (v ^^^ 0x80000000) := by
  simp [fpAbsolute, fpNegate, fpIsSNan_of_not_nan hn, fpIsQNan_of_not_nan hn, hz]

theorem unary_of_inf (h : fpIsInf v = true) :
    fpAbsolute v = .value 0x7F800000 ∧ fpNegate v = .value (fpInf (!fpSign v)) := by
  obtain ⟨hz, hn⟩ := fpIsInf_excludes h
  obtain ⟨habs, hneg⟩ := unary_of_nonzero hn hz
  rw [habs, hneg, flip_of_inf h, beq_iff_eq.1 h]
  exact ⟨rfl, rfl⟩

theorem unary_of_norm (h : FpNorm v) :
    ∃ p q, fpAbsolute v = .value p ∧ fpNegate v = .value q ∧ FpNorm p ∧ FpNorm q ∧
      fpVal p = (fpVal v).natAbs ∧ fpVal q = -fpVal v := by
  obtain ⟨hz, -, hn⟩ := (fpNorm_iff v).1 h
  obtain ⟨habs, hneg⟩ := unary_of_nonzero hn hz
  exact ⟨_, _, habs, hneg, (fpNorm_fpAbs v).2 h, (fpNorm_flip v).2 h, fpVal_fpAbs v, fpVal_flip v⟩

end Unary

/-! ### FMAC (R339) -/

theorem not_nan_of_finite {v : Word} (h : fpIsZero v = true ∨ FpNorm v) : fpIsInf v = false ∧ fpIsNan v = false := by
  rcases h with h | h
  · exact fpIsZero_excludes h
  · exact ((fpNorm_iff v).1 h).2

theorem nonzero_of_inf_or_norm {v : Word} (h : fpIsInf v = true ∨ FpNorm v) :
    fpIsZero v = false ∧ fpIsNan v = false := by
  rcases h with h | h
  · exact fpIsInf_excludes h
  · obtain ⟨hz, -, hn⟩ := (fpNorm_iff v).1 h
    exact ⟨hz, hn⟩

/-- A truncated magnitude is no NaN. -/
theorem fpIsNan_of_truncatedTo {sign : Bool} {num den : Nat} {w : Word} (h : TruncatedTo sign num den w) :
    fpIsNan w = false := by
  obtain ⟨hsmall, hlarge⟩ := h
  rcases Nat.lt_or_ge num (2 ^ 23 * den) with hlt | hge
  · rw [hsmall hlt]
    cases sign <;> rfl
  · obtain ⟨-, hnorm, -⟩ := hlarge hge
    exact ((fpNorm_iff w).1 hnorm).2.2

section Mac

variable {fused : Bool} {a b c : Word}

theorem fpMac_of_snan (h : fpIsSNan a = true ∨ fpIsSNan b = true ∨ fpIsSNan c = true) :
    fpMac fused a b c = .invalid :=
  if_pos (by simpa [or_assoc] using h)

/-- An infinity times a zero is invalid, whatever FRn holds. -/
theorem fpMac_of_inf_zero
    (h : fpIsInf a = true ∧ fpIsZero b = true ∨ fpIsZero a = true ∧ fpIsInf b = true) :
    fpMac fused a b c = .invalid := by
  simp only [fpMac]
  split
  · rfl
  · exact if_pos (by simpa [or_comm] using h)

theorem fpMac_of_qnan (ha : fpIsSNan a = false) (hb : fpIsSNan b = false) (hc : fpIsSNan c = false)
    (hprod : ¬(fpIsInf a = true ∧ fpIsZero b = true ∨ fpIsZero a = true ∧ fpIsInf b = true))
    (h : fpIsQNan a = true ∨ fpIsQNan b = true ∨ fpIsQNan c = true) : fpMac fused a b c = .value fpQNan := by
  simp only [fpMac, ha, hb, hc]
  rw [if_neg (by decide), if_neg (by simpa [or_comm] using hprod), if_pos (by simpa [or_assoc] using h)]

section Numbers

variable (han : fpIsNan a = false) (hbn : fpIsNan b = false) (hcn : fpIsNan c = false)

include han hbn hcn

/-- An infinite product. -/
theorem fpMac_inf_product (haz : fpIsZero a = false) (hbz : fpIsZero b = false)
    (h : fpIsInf a = true ∨ fpIsInf b = true) :
    fpMac fused a b c = if fpIsInf c = true ∧ fpSign c ≠ (fpSign a ^^ fpSign b) then .invalid
      else .value (fpInf (fpSign a ^^ fpSign b)) := by
  simp [fpMac, fpIsSNan_of_not_nan, fpIsQNan_of_not_nan, han, hbn, hcn, haz, hbz, h]

/-- A finite product and an infinity. -/
theorem fpMac_finite_inf (hai : fpIsInf a = false) (hbi : fpIsInf b = false) (hc : fpIsInf c = true) :
    fpMac fused a b c = .value (fpInf (fpSign c)) := by
  simp [fpMac, fpIsSNan_of_not_nan, fpIsQNan_of_not_nan, han, hbn, hcn, hai, hbi, hc]

/-- A zero product and a finite number. -/
theorem fpMac_zero_product (hai : fpIsInf a = false) (hbi : fpIsInf b = false) (hci : fpIsInf c = false)
    (h : fpIsZero a = true ∨ fpIsZero b = true) :
    fpMac fused a b c =
      .value (if fpIsZero c = true then fpZero (fpSign c && (fpSign a ^^ fpSign b)) else c) := by
  simp [fpMac, fpIsSNan_of_not_nan, fpIsQNan_of_not_nan, han, hbn, hcn, hai, hbi, hci, h]

end Numbers

/-- A nonzero finite product and a finite number. -/
theorem fpMac_norm_product (ha : FpNorm a) (hb : FpNorm b) (hci : fpIsInf c = false) (hcn : fpIsNan c = false) :
    fpMac fused a b c = fpMacArith fused a b c := by
  obtain ⟨haz, hai, han⟩ := (fpNorm_iff a).1 ha
  obtain ⟨hbz, hbi, hbn⟩ := (fpNorm_iff b).1 hb
  simp [fpMac, fpIsSNan_of_not_nan, fpIsQNan_of_not_nan, han, hbn, hcn, haz, hai, hbz, hbi, hci]

/-- FMAC of a number: rounded once where it is fused, else the truncated product added by FADD (assumption 21). -/
theorem fpMac_norm_rounds (ha : FpNorm a) (hb : FpNorm b) (hc : fpIsZero c = true ∨ FpNorm c) :
    TruncatesTo (fpMac true a b c) (fpVal a * fpVal b + fpVal c * 2 ^ 149) (2 ^ 149) ∧
      ∃ p, TruncatedTo (fpSign a ^^ fpSign b) (fpMag a * fpMag b) (2 ^ 149) p ∧ fpMac false a b c = fpAdd c p := by
  obtain ⟨hci, hcn⟩ := not_nan_of_finite hc
  have hproduct := floatTruncation (fpSign a ^^ fpSign b) (fpMag a * fpMag b) (2 ^ 149) (Nat.two_pow_pos _)
  constructor
  · rw [fpMac_norm_product ha hb hci hcn]
    exact truncatesTo_fpRzInt _ (Nat.two_pow_pos _)
  · refine ⟨_, hproduct, ?_⟩
    rw [fpMac_norm_product ha hb hci hcn, fpAdd_of_not_nan hcn (fpIsNan_of_truncatedTo hproduct)]
    rfl

end Mac

/-! ### The seven instructions -/

/-- Settles O53: each instruction ends with its outcome written to FRn and FPSCR, and FABS, FNEG and FMAC go by the
classes of their operands. -/
theorem floatArithmetic : Obligations.FloatArithmetic := by
  refine ⟨fun s m n i code r hs hi hq => ?instructions,
    fun v => ⟨unary_of_snan, unary_of_qnan, unary_of_inf, unary_of_zero, unary_of_norm⟩, ?mac⟩
  case instructions =>
    rcases hi with ⟨rfl, rfl, rfl⟩ | ⟨rfl, rfl, rfl⟩ | ⟨rfl, rfl, rfl⟩ | ⟨rfl, rfl, rfl⟩ | ⟨rfl, rfl, rfl⟩ |
      ⟨rfl, rfl, rfl⟩ | ⟨rfl, rfl, rfl⟩ <;> exact means_of_guardFpu hs rfl rfl (arithOutcome_of_quiet hq)
  case mac =>
    rintro fused a b c _ rfl
    refine ⟨fpMac_of_snan, fun _ => fpMac_of_inf_zero, fpMac_of_qnan, fun hcn h => ?infProduct,
      fun ha hb hc => ?finiteInf, fun h => ?zeroProduct, fpMac_norm_rounds⟩
    case infProduct =>
      obtain ⟨ha, hb, hinf⟩ : (fpIsInf a = true ∨ FpNorm a) ∧ (fpIsInf b = true ∨ FpNorm b) ∧
          (fpIsInf a = true ∨ fpIsInf b = true) := by tauto
      obtain ⟨haz, han⟩ := nonzero_of_inf_or_norm ha
      obtain ⟨hbz, hbn⟩ := nonzero_of_inf_or_norm hb
      rw [fpMac_inf_product han hbn hcn haz hbz hinf]
      exact ⟨fun hc hs => if_pos ⟨hc, hs⟩, fun h => if_neg fun ⟨hc, hs⟩ => h.elim (fun hf => by simp [hf] at hc) hs⟩
    case finiteInf =>
      obtain ⟨hai, han⟩ := not_nan_of_finite ha
      obtain ⟨hbi, hbn⟩ := not_nan_of_finite hb
      exact fpMac_finite_inf han hbn (fpIsInf_excludes hc).2 hai hbi hc
    case zeroProduct =>
      obtain ⟨ha, hb, hzero⟩ : (fpIsZero a = true ∨ FpNorm a) ∧ (fpIsZero b = true ∨ FpNorm b) ∧
          (fpIsZero a = true ∨ fpIsZero b = true) := by tauto
      obtain ⟨hai, han⟩ := not_nan_of_finite ha
      obtain ⟨hbi, hbn⟩ := not_nan_of_finite hb
      refine ⟨fun hc => ?_, fun hc => ?_⟩
      · obtain ⟨hci, hcn⟩ := fpIsZero_excludes hc
        rw [fpMac_zero_product han hbn hcn hai hbi hci hzero, if_pos hc]
      · obtain ⟨hcz, hci, hcn⟩ := (fpNorm_iff c).1 hc
        rw [fpMac_zero_product han hbn hcn hai hbi hci hzero, if_neg (by simp [hcz])]

end Sys2Proof.Machine
end

section
/-! PROOFS. Floating-point comparison (46_floating_point, R332, R333): an invalid operation with and without EV, and what
FCMP/EQ and FCMP/GT come to by the classes of their operands. -/

namespace Sys2Proof.Machine

/-! ### An invalid operation (R315) -/

section Invalid

variable {s : State} {disabled : State → State}

theorem invalidOutcome_of_disabled (h : s.ev = false) :
    invalidOutcome s.clearCause disabled = finish (disabled { s with fpscr := fpscrAfter .invalid s }) := by
  rw [← State.setInvalid_clearCause]
  exact if_neg (by rw [State.ev_clearCause_setInvalid, h]; decide)

theorem invalidOutcome_of_enabled (h : s.ev = true) :
    invalidOutcome s.clearCause disabled = raiseFpu { s with fpscr := fpscrAfter .invalid s } := by
  rw [← State.setInvalid_clearCause]
  exact if_pos (by rw [State.ev_clearCause_setInvalid, h])

end Invalid

/-! ### FCMP/EQ and FCMP/GT (R332, R333) -/

/-- T and FPSCR after a comparison, and nothing else changed but PC. -/
def Compared (b : Bool) (fpscr : Word) (s t : State) : Prop :=
  t.t = b ∧ t.fpscr = fpscr ∧ Frame [] [] [.fpscr] srT s t ∧ MemKept s t ∧ Completed false s t

theorem compareOutcome_some (s : State) (b : Bool) :
    ∃ t, compareOutcome (some b) s = .next t ∧ Compared b (fpscrAfter (.value 0) s) s t := by
  rw [compareOutcome, State.clearCause_eq s 0]
  exact finish_wroteTFpscr b _ s

theorem compareOutcome_none_of_disabled {s : State} (h : s.ev = false) :
    ∃ t, compareOutcome none s = .next t ∧ Compared false (fpscrAfter .invalid s) s t := by
  rw [compareOutcome, invalidOutcome_of_disabled h]
  exact finish_wroteTFpscr false _ s

theorem compareOutcome_none_of_enabled {s : State} (h : s.ev = true) :
    compareOutcome none s = raiseFpu { s with fpscr := fpscrAfter .invalid s } := by
  rw [compareOutcome, invalidOutcome_of_enabled h]

/-- A NaN is signaling or quiet by its bit 22 (R312). -/
theorem snan_or_qnan {v : Word} (h : fpIsNan v = true) : fpIsSNan v = true ∨ fpIsQNan v = true := by
  rw [fpIsSNan, fpIsQNan, h]
  cases v.getLsbD 22 <;> simp

section Compare

variable {a b : Word}

theorem fpCompare_of_snan (h : fpIsSNan a = true ∨ fpIsSNan b = true) : fpCompare a b = .invalid :=
  if_pos (by simpa using h)

theorem fpCompare_of_qnan (ha : fpIsSNan a = false) (hb : fpIsSNan b = false)
    (h : fpIsNan a = true ∨ fpIsNan b = true) : fpCompare a b = .unordered := by
  have hq : fpIsQNan a = true ∨ fpIsQNan b = true :=
    h.imp (fun h => (snan_or_qnan h).resolve_left (by simp [ha])) fun h => (snan_or_qnan h).resolve_left (by simp [hb])
  rw [fpCompare, if_neg (by simp [ha, hb]), if_pos (by simpa using hq)]

/-- The order of two numbers. -/
theorem fpCompare_of_not_nan (ha : fpIsNan a = false) (hb : fpIsNan b = false) :
    fpCompare a b =
      if fpVal a = fpVal b then .equal else if fpVal b < fpVal a then .greater else .notGreater := by
  simp [fpCompare, fpIsSNan_of_not_nan, fpIsQNan_of_not_nan, ha, hb]

end Compare

section Instructions

variable {s : State} {m n : FRegNum} (hs : s.fpuStopped = false)

include hs

theorem exec_fcmpEq_of_snan (h : fpIsSNan (s.freg n) = true ∨ fpIsSNan (s.freg m) = true) :
    exec (.fcmpEq m n) s = compareOutcome none s := by
  rw [exec, execFcmpEq, guardFpu_of_running _ hs, fpCompare_of_snan h]

theorem exec_fcmpGt_of_nan (h : fpIsNan (s.freg n) = true ∨ fpIsNan (s.freg m) = true) :
    exec (.fcmpGt m n) s = compareOutcome none s := by
  rw [exec, execFcmpGt, guardFpu_of_running _ hs]
  by_cases hsig : fpIsSNan (s.freg n) = true ∨ fpIsSNan (s.freg m) = true
  · rw [fpCompare_of_snan hsig]
  · obtain ⟨hn, hm⟩ : fpIsSNan (s.freg n) = false ∧ fpIsSNan (s.freg m) = false := by simpa using hsig
    rw [fpCompare_of_qnan hn hm h]

theorem exec_fcmpEq_of_no_snan (hn : fpIsSNan (s.freg n) = false) (hm : fpIsSNan (s.freg m) = false) :
    exec (.fcmpEq m n) s = compareOutcome (some (!fpIsNan (s.freg n) && !fpIsNan (s.freg m) &&
      decide (fpVal (s.freg n) = fpVal (s.freg m)))) s := by
  rw [exec, execFcmpEq, guardFpu_of_running _ hs]
  by_cases hnan : fpIsNan (s.freg n) = true ∨ fpIsNan (s.freg m) = true
  · rw [fpCompare_of_qnan hn hm hnan]
    rcases hnan with h | h
    · rw [h]; rfl
    · rw [h, Bool.not_true, Bool.and_false]; rfl
  · obtain ⟨hn, hm⟩ : fpIsNan (s.freg n) = false ∧ fpIsNan (s.freg m) = false := by simpa using hnan
    rw [fpCompare_of_not_nan hn hm, hn, hm]
    split_ifs with heq hlt
    · rw [decide_eq_true heq]; rfl
    · rw [decide_eq_false heq]; rfl
    · rw [decide_eq_false heq]; rfl

theorem exec_fcmpGt_of_not_nan (hn : fpIsNan (s.freg n) = false) (hm : fpIsNan (s.freg m) = false) :
    exec (.fcmpGt m n) s = compareOutcome (some (decide (fpVal (s.freg m) < fpVal (s.freg n)))) s := by
  rw [exec, execFcmpGt, guardFpu_of_running _ hs, fpCompare_of_not_nan hn hm]
  split_ifs with heq hlt
  · rw [decide_eq_false (by omega)]; rfl
  · rw [decide_eq_true hlt]; rfl
  · rw [decide_eq_false hlt]; rfl

end Instructions

/-- Settles O54: FCMP/EQ is invalid with a signaling NaN, FCMP/GT with any, and without one T is the comparison of the
values. -/
theorem floatCompare : Obligations.FloatCompare := by
  rintro s m n _ _ hs rfl rfl
  refine ⟨⟨decode_encode (.fcmpEq m n), decode_encode (.fcmpGt m n)⟩, fun ha hb => ?_, fun ha hb => ?_, fun i hi => ?_⟩
  · exact completes_of_exec_eq (exec_fcmpEq_of_no_snan hs ha hb) (compareOutcome_some s _)
  · exact completes_of_exec_eq (exec_fcmpGt_of_not_nan hs ha hb) (compareOutcome_some s _)
  · have hexec : exec i s = compareOutcome none s := by
      rcases hi with ⟨rfl, h⟩ | ⟨rfl, h⟩
      · exact exec_fcmpEq_of_snan hs h
      · exact exec_fcmpGt_of_nan hs h
    exact ⟨fun hev => completes_of_exec_eq hexec (compareOutcome_none_of_disabled hev),
      fun hev => hexec.trans (compareOutcome_none_of_enabled hev)⟩

end Sys2Proof.Machine
end

section
/-! PROOFS. Conversions (46_floating_point, R351, R338): FTRC by the range its operand falls in, and FLOAT as a
truncation that is exact for small magnitudes. -/

namespace Sys2Proof.Machine

/-! ### FTRC (R351) -/

section Ranges

variable {v : Word}

theorem fpVal_of_neg (h : fpSign v = true) : fpVal v = -(fpMag v : Int) := if_pos h

theorem fpVal_of_pos (h : fpSign v = false) : fpVal v = fpMag v := if_neg (by simp [h])

/-- The bound of FTRC's range is the magnitude of the pattern H'4F000000. -/
theorem fpMag_bound : fpMag 0x4F000000 = 2 ^ 31 * 2 ^ 149 := by decide

theorem fpMag_le_bound_iff (v : Word) : fpMag v ≤ 2 ^ 31 * 2 ^ 149 ↔ v.toNat % 2 ^ 31 ≤ 0x4F000000 := by
  rw [← fpMag_bound]
  exact fpMag_le_fpMag_iff (by decide)

theorem fpMag_lt_bound_iff (v : Word) : fpMag v < 2 ^ 31 * 2 ^ 149 ↔ v.toNat % 2 ^ 31 < 0x4F000000 := by
  rw [← fpMag_bound]
  exact fpMag_lt_fpMag_iff (by decide)

/-- A negative operand is out of range above the pattern H'CF000000, NaNs included. -/
theorem fpToInt_of_neg (h : fpSign v = true) :
    fpToInt v = if v.toNat % 2 ^ 31 ≤ 0x4F000000 then .value (fpTruncate v) else .invalid 0x80000000 := by
  have hs : 2 ^ 31 ≤ v.toNat := by simpa [fpSign_eq] using h
  have hv := v.isLt
  have hult : BitVec.ult 0xCF000000 v = true ↔ ¬v.toNat % 2 ^ 31 ≤ 0x4F000000 := by
    rw [BitVec.ult_iff_toNat_lt]
    show 0xCF000000 < v.toNat ↔ _
    omega
  simp only [fpToInt, h, hult, if_true, ite_not]

/-- A positive operand that is no NaN is out of range from the pattern H'4F000000 on. -/
theorem fpToInt_of_pos (h : fpSign v = false) (hn : fpIsNan v = false) :
    fpToInt v = if v.toNat % 2 ^ 31 < 0x4F000000 then .value (fpTruncate v) else .invalid 0x7FFFFFFF := by
  have hult : BitVec.ult 0x4EFFFFFF (fpAbs v) = true ↔ ¬v.toNat % 2 ^ 31 < 0x4F000000 := by
    rw [BitVec.ult_iff_toNat_lt, fpAbs_toNat]
    show 0x4EFFFFFF < _ ↔ _
    omega
  rw [fpIsNan] at hn
  simp only [fpToInt, h, hn, hult, if_false, ite_not, Bool.false_eq_true]

theorem fpToInt_of_nan (h : fpIsNan v = true) : fpToInt v = .invalid 0x80000000 := by
  have hmod := (fpIsNan_iff v).1 h
  cases hs : fpSign v with
  | true => rw [fpToInt_of_neg hs, if_neg (by omega)]
  | false => rw [fpToInt, hs, if_neg (by decide)]; exact if_pos h

theorem fpToInt_of_large (hn : fpIsNan v = false) (h : 2 ^ 31 * 2 ^ 149 ≤ fpVal v) :
    fpToInt v = .invalid 0x7FFFFFFF := by
  have hbound := fpMag_lt_bound_iff v
  cases hs : fpSign v with
  | true => rw [fpVal_of_neg hs] at h; omega
  | false =>
    rw [fpVal_of_pos hs] at h
    rw [fpToInt_of_pos hs hn, if_neg (by omega)]

theorem fpToInt_of_small (h : fpVal v < -2 ^ 31 * 2 ^ 149) : fpToInt v = .invalid 0x80000000 := by
  have hbound := fpMag_le_bound_iff v
  cases hs : fpSign v with
  | true =>
    rw [fpVal_of_neg hs] at h
    rw [fpToInt_of_neg hs, if_neg (by omega)]
  | false => rw [fpVal_of_pos hs] at h; omega

theorem fpToInt_of_in_range (hn : fpIsNan v = false) (hlo : -2 ^ 31 * 2 ^ 149 ≤ fpVal v)
    (hhi : fpVal v < 2 ^ 31 * 2 ^ 149) : fpToInt v = .value (fpTruncate v) := by
  cases hs : fpSign v with
  | true =>
    have hbound := fpMag_le_bound_iff v
    rw [fpVal_of_neg hs] at hlo
    rw [fpToInt_of_neg hs, if_pos (by omega)]
  | false =>
    have hbound := fpMag_lt_bound_iff v
    rw [fpVal_of_pos hs] at hhi
    rw [fpToInt_of_pos hs hn, if_pos (by omega)]

/-- What FTRC cuts off is the part after the point. -/
theorem fpTruncate_eq (v : Word) : fpTruncate v = BitVec.ofInt 32 ((fpVal v).tdiv (2 ^ 149)) := by
  have hdiv : ((fpMag v / 2 ^ 149 : Nat) : Int) = (fpMag v : Int).tdiv (2 ^ 149) := Int.ofNat_tdiv _ _
  rw [fpTruncate, hdiv]
  cases hs : fpSign v with
  | true => rw [if_pos rfl, fpVal_of_neg hs, Int.neg_tdiv]
  | false => rw [if_neg (by decide), fpVal_of_pos hs]

theorem fpTruncate_toInt (hlo : -2 ^ 31 * 2 ^ 149 ≤ fpVal v) (hhi : fpVal v < 2 ^ 31 * 2 ^ 149) :
    (fpTruncate v).toInt = (fpVal v).tdiv (2 ^ 149) := by
  have hsign : (2 ^ 149 : Int).sign = 1 := Int.sign_eq_one_of_pos (by decide)
  have hfloor := Int.tdiv_eq_ediv (a := fpVal v) (b := 2 ^ 149)
  rw [fpTruncate_eq]
  apply BitVec.toInt_ofInt_eq_self (by decide)
  · show -2 ^ 31 ≤ _
    split_ifs at hfloor <;> omega
  · show _ < 2 ^ 31
    split_ifs at hfloor <;> omega

end Ranges

/-- FPUL and FPSCR after a conversion to an integer, and nothing else changed but PC. -/
def Converted (v fpscr : Word) (s t : State) : Prop :=
  t.fpul = v ∧ t.fpscr = fpscr ∧ Frame [] [] [.fpul, .fpscr] 0 s t ∧ MemKept s t ∧ Completed false s t

section Instruction

variable {s : State} {m : FRegNum} (hs : s.fpuStopped = false) {v : Word}

include hs

theorem ftrc_of_value (h : fpToInt (s.freg m) = .value v) :
    Completes (.ftrc m) s (Converted v (fpscrAfter (.value 0) s) s) := by
  have hexec : exec (.ftrc m) s = finish { s with fpscr := fpscrAfter (.value 0) s, fpul := v } := by
    rw [exec, execFtrc, guardFpu_of_running _ hs, h, State.clearCause_eq s 0]
  exact completes_of_exec_eq hexec (finish_wroteFpulFpscr v _ s)

theorem exec_ftrc_of_invalid (h : fpToInt (s.freg m) = .invalid v) :
    exec (.ftrc m) s = invalidOutcome s.clearCause fun w => { w with fpul := v } := by
  rw [exec, execFtrc, guardFpu_of_running _ hs, h]

theorem ftrc_of_invalid_disabled (h : fpToInt (s.freg m) = .invalid v) (hev : s.ev = false) :
    Completes (.ftrc m) s (Converted v (fpscrAfter .invalid s) s) :=
  completes_of_exec_eq ((exec_ftrc_of_invalid hs h).trans (invalidOutcome_of_disabled hev))
    (finish_wroteFpulFpscr v _ s)

theorem ftrc_of_invalid_enabled (h : fpToInt (s.freg m) = .invalid v) (hev : s.ev = true) :
    exec (.ftrc m) s = raiseFpu { s with fpscr := fpscrAfter .invalid s } :=
  (exec_ftrc_of_invalid hs h).trans (invalidOutcome_of_enabled hev)

end Instruction

/-- Settles O55: FTRC gives the truncated value in range, and out of range, or for a NaN, the invalid operation with the
value of its case. -/
theorem floatToInteger : Obligations.FloatToInteger := by
  rintro s m _ hs rfl
  refine ⟨decode_encode (.ftrc m), fun hn hlo hhi => ?_, fun saturated h => ?_⟩
  · obtain ⟨t, ht, hfpul, hrest⟩ := ftrc_of_value hs (fpToInt_of_in_range hn hlo hhi)
    exact ⟨t, ht, by rw [hfpul, fpTruncate_toInt hlo hhi], hrest⟩
  · have hinvalid : fpToInt (s.freg m) = .invalid saturated := by
      rcases h with ⟨hn, hlarge, rfl⟩ | ⟨-, hsmall, rfl⟩ | ⟨hn, rfl⟩
      · exact fpToInt_of_large hn hlarge
      · exact fpToInt_of_small hsmall
      · exact fpToInt_of_nan hn
    exact ⟨ftrc_of_invalid_disabled hs hinvalid, ftrc_of_invalid_enabled hs hinvalid⟩

/-! ### FLOAT (R338) -/

theorem fpOfInt_zero : fpOfInt 0 = 0 := rfl

theorem toInt_natAbs_pos {v : Word} (h : v ≠ 0) : 1 ≤ v.toInt.natAbs :=
  Int.natAbs_pos.2 fun h0 => h (BitVec.eq_of_toInt_eq h0)

/-- FLOAT truncates the magnitude of the integer and takes its sign. -/
theorem fpOfInt_eq (v : Word) : fpOfInt v = fpRz (decide (v.toInt < 0)) (v.toInt.natAbs * 2 ^ 149) 1 := by
  have hsign : v.toInt * 2 ^ 149 < 0 ↔ v.toInt < 0 := by omega
  rw [fpOfInt, fpRzInt, decide_eq_decide.2 hsign, Int.natAbs_mul]
  rfl

theorem truncatedTo_fpOfInt (v : Word) :
    TruncatedTo (decide (v.toInt < 0)) (v.toInt.natAbs * 2 ^ 149) 1 (fpOfInt v) := by
  rw [fpOfInt_eq]
  exact floatTruncation _ _ _ Nat.one_pos

/-- A nonzero integer gives a normalized number of its sign, the greatest that does not exceed it in magnitude. -/
theorem fpOfInt_of_ne_zero {v : Word} (h : v ≠ 0) :
    fpSign (fpOfInt v) = decide (v.toInt < 0) ∧ FpNorm (fpOfInt v) ∧
      fpMag (fpOfInt v) ≤ v.toInt.natAbs * 2 ^ 149 ∧
      ∀ w : Word, FpNorm w → fpMag w ≤ v.toInt.natAbs * 2 ^ 149 → fpMag w ≤ fpMag (fpOfInt v) := by
  obtain ⟨-, hlarge⟩ := truncatedTo_fpOfInt v
  have hpos := toInt_natAbs_pos h
  simpa only [Nat.mul_one] using hlarge (by omega)

/-- A number of at most 24 significant bits loses none below them. -/
theorem two_pow_log2_dvd {n : Nat} (k : Nat) (hpos : n ≠ 0) (h : n ≤ 2 ^ 24) :
    2 ^ ((n * 2 ^ k).log2 - 23) ∣ n * 2 ^ k := by
  rcases h.eq_or_lt with rfl | hlt
  · rw [← pow_add, Nat.log2_two_pow]
    exact Nat.pow_dvd_pow 2 (Nat.sub_le _ _)
  · have hunits : n * 2 ^ k < 2 ^ (24 + k) := by
      rw [pow_add]
      exact Nat.mul_lt_mul_of_pos_right hlt (Nat.two_pow_pos k)
    have hlog : (n * 2 ^ k).log2 < 24 + k := (Nat.log2_lt (Nat.mul_ne_zero hpos (Nat.two_pow_pos k).ne')).2 hunits
    exact Dvd.dvd.mul_left (Nat.pow_dvd_pow 2 (by omega)) n

theorem fpMag_fpOfInt_of_le {v : Word} (h : v.toInt.natAbs ≤ 2 ^ 24) :
    fpMag (fpOfInt v) = v.toInt.natAbs * 2 ^ 149 := by
  by_cases hv : v = 0
  · subst hv; rfl
  · have hpos := toInt_natAbs_pos hv
    have hunits : v.toInt.natAbs * 2 ^ 149 < 2 ^ 174 := by omega
    have htop : (v.toInt.natAbs * 2 ^ 149).log2 < 174 := (Nat.log2_lt (by omega)).2 hunits
    rw [fpOfInt_eq, fpMag_fpRz_of_normal _ (Nat.div_one _) (by omega) (by omega)]
    exact Nat.div_mul_cancel (two_pow_log2_dvd 149 (by omega) h)

theorem fpVal_fpOfInt_of_le {v : Word} (h : v.toInt.natAbs ≤ 2 ^ 24) : fpVal (fpOfInt v) = v.toInt * 2 ^ 149 := by
  have hmag := fpMag_fpOfInt_of_le h
  by_cases hv : v = 0
  · subst hv; rfl
  · obtain ⟨hsign, -⟩ := fpOfInt_of_ne_zero hv
    rw [fpVal, hsign, hmag]
    by_cases hneg : v.toInt < 0
    · rw [if_pos (decide_eq_true hneg)]; omega
    · rw [if_neg (by simpa using hneg)]; omega

/-- FTRC undoes FLOAT where it is exact. -/
theorem fpToInt_fpOfInt_of_le {v : Word} (h : v.toInt.natAbs ≤ 2 ^ 24) : fpToInt (fpOfInt v) = .value v := by
  have hval := fpVal_fpOfInt_of_le h
  have hlo : -2 ^ 31 * 2 ^ 149 ≤ fpVal (fpOfInt v) := by omega
  have hhi : fpVal (fpOfInt v) < 2 ^ 31 * 2 ^ 149 := by omega
  rw [fpToInt_of_in_range (fpIsNan_of_truncatedTo (truncatedTo_fpOfInt v)) hlo hhi]
  congr 1
  apply BitVec.eq_of_toInt_eq
  rw [fpTruncate_toInt hlo hhi, hval, Int.mul_tdiv_cancel _ (by decide)]

/-- CV and CZ cleared where the parameter says so, then a write of FRn (assumption 24). -/
theorem finish_float (s : State) (c : Bool) (n : FRegNum) (v : Word) :
    ∃ t, finish ((if c then s.clearCause else s).setFreg n v) = .next t ∧
      WroteFp n v (if c then s.fpscr &&& 0xFFFE7FFF else s.fpscr) s t := by
  cases c with
  | true =>
    simp only [if_true, State.clearCause_eq s v]
    exact finish_wroteFp n v _ s
  | false => exact finish_wroteFp n v s.fpscr s

/-- Settles O56: FLOAT is the truncation of FPUL's magnitude, which loses nothing of 24 bits. -/
theorem integerToFloat : Obligations.IntegerToFloat := by
  refine ⟨fun s n hs => ?_, fun v => ?_⟩
  · obtain ⟨t, ht, hwrote⟩ := finish_float s s.params.floatClearsCause n (fpOfInt s.fpul)
    exact means_of_guardFpu hs rfl rfl
      ⟨t, ht, hwrote.result, hwrote.status, hwrote.frame, hwrote.memory, hwrote.done⟩
  · refine ⟨by rintro rfl; exact fpOfInt_zero, fun h => ?_, ?_⟩
    · obtain ⟨-, hnorm, -⟩ := fpOfInt_of_ne_zero h
      obtain ⟨hz, hi, hn⟩ := (fpNorm_iff _).1 hnorm
      exact ⟨hi, hn, hz⟩
    · have hexact (h : v.toInt.natAbs ≤ 2 ^ 24) :
          fpVal (fpOfInt v) = v.toInt * 2 ^ 149 ∧ fpToInt (fpOfInt v) = .value v :=
        ⟨fpVal_fpOfInt_of_le h, fpToInt_fpOfInt_of_le h⟩
      by_cases h : v = 0
      · subst h
        have hmag : fpMag (fpOfInt 0) = (0 : Word).toInt.natAbs * 2 ^ 149 := fpMag_fpOfInt_of_le (by decide)
        exact ⟨rfl, hmag.le, fun w _ _ hw => hmag ▸ hw, hexact⟩
      · obtain ⟨hsign, -, hle, hgreatest⟩ := fpOfInt_of_ne_zero h
        exact ⟨hsign, hle, fun w hlo hhi => hgreatest w ⟨hlo, hhi⟩, hexact⟩

end Sys2Proof.Machine
end

section
/-! PROOFS. The FPU exception (46_floating_point, R315, R316; 60_exceptions, R408, R410): every enabled invalid operation
or division by zero raises it, and what taking it does. -/

namespace Sys2Proof.Machine

/-- The FPU exception, taken from the state with FPSCR already written: SR and the stacked PC are those before it. -/
theorem raiseFpu_took {s : State} (fpscr : Word) (hm : s.mem.wf = true) (he : s.EntryReady 13) :
    ∃ t, raiseFpu { s with fpscr := fpscr } = .next t ∧
      TookException 13 (s.stackedPc s.params.stackedPcFpu s.params.stackedPcFpuSlot) s.sr
        { s with fpscr := fpscr } t :=
  enterException_took (s := { s with fpscr := fpscr }) (level := none) hm (he.congr rfl rfl rfl)

/-- An arithmetic instruction whose outcome is stopped raises the FPU exception, under the guard of the FPU. -/
theorem arith_raises {i : Instr} {s : State} {n : FRegNum} {r : FpResult} (hs : s.fpuStopped = false)
    (hi : exec i s = guardFpu s (arithOutcome n r s)) (ht : FpTraps r s) :
    exec i s = raiseFpu { s with fpscr := fpscrAfter r s } := by
  rw [hi, guardFpu_of_running _ hs, arithOutcome_of_traps ht]

/-- The operands that FTRC refuses. -/
theorem fpToInt_of_out_of_range {v : Word}
    (h : fpIsNan v = true ∨ 2 ^ 31 * 2 ^ 149 ≤ fpVal v ∨ fpVal v < -2 ^ 31 * 2 ^ 149) :
    ∃ saturated, fpToInt v = .invalid saturated := by
  by_cases hn : fpIsNan v = true
  · exact ⟨_, fpToInt_of_nan hn⟩
  · rcases h.resolve_left hn with hlarge | hsmall
    · exact ⟨_, fpToInt_of_large (by simpa using hn) hlarge⟩
    · exact ⟨_, fpToInt_of_small hsmall⟩

/-- Settles O58: the seven arithmetic instructions, the two comparisons and FTRC all raise the FPU exception with FPSCR
showing the outcome. -/
theorem fpuExceptions : Obligations.FpuExceptions := by
  rintro s _ m n i r hs hm he hi ht rfl
  have hraises : exec i s = raiseFpu { s with fpscr := fpscrAfter r s } := by
    rcases hi with ⟨rfl, rfl⟩ | ⟨rfl, rfl⟩ | ⟨rfl, rfl⟩ | ⟨rfl, rfl⟩ | ⟨rfl, rfl⟩ | ⟨rfl, rfl⟩ | ⟨rfl, rfl⟩ |
      ⟨rfl, rfl, h⟩ | ⟨rfl, rfl, h⟩ | ⟨rfl, rfl, h⟩
    iterate 7 · exact arith_raises hs rfl ht
    · exact (exec_fcmpEq_of_snan hs h).trans (compareOutcome_none_of_enabled ht)
    · exact (exec_fcmpGt_of_nan hs h).trans (compareOutcome_none_of_enabled ht)
    · obtain ⟨saturated, hinvalid⟩ := fpToInt_of_out_of_range h
      exact ftrc_of_invalid_enabled hs hinvalid ht
  rw [hraises]
  exact raiseFpu_took _ hm he

end Sys2Proof.Machine
end

section
/-! PROOFS. LDS and STS of FPSCR and FPUL (47_fpu_cpu, R361 to R368): the system register moves of
45_system_control under the guard of a running FPU, and not interrupt-disabled (D22). -/

namespace Sys2Proof.Machine

/-- FPSCR takes its six writable bits, beside the two fixed ones (R30); every other special register takes the value whole
(`special_writeSpecial_self`). -/
theorem State.special_writeSpecial_fpscr (s : State) (v : Word) :
    (s.writeSpecial .fpscr v).special .fpscr = v &&& 0x00018C60 ||| 0x00040001 := rfl

/-- A copy into FPSCR. -/
theorem finish_wroteFpscr (s : State) (v : Word) :
    ∃ t, finish (s.writeSpecial .fpscr v) = .next t ∧ WroteSpecial .fpscr (v &&& 0x00018C60 ||| 0x00040001) false s t :=
  finish_wroteSpecial (s.sameButSpecials_writeSpecial .fpscr v) (s.special_writeSpecial_fpscr v)
    fun _ hq => s.special_writeSpecial_of_ne v hq

/-- A load of a special register that reads as `w` once `v` is loaded, with the update of its pointer. -/
theorem finish_writeSpecialInc (s : State) {r : Special} {v w : Word} (h : (s.writeSpecial r v).special r = w)
    (m : RegNum) (p : Word) :
    ∃ t, finish ((s.writeSpecial r v).setReg m p) = .next t ∧ t.special r = w ∧ t.reg m = p ∧
      Frame [m] [] [r] 0 s t ∧ MemKept s t ∧ Completed false s t :=
  finish_wroteSpecialInc (s.sameButSpecials_writeSpecial r v) h fun _ hq => s.special_writeSpecial_of_ne v hq

/-- Settles O57: once the FPU runs, the eight forms are two copies, a load and a store of each of the two registers. -/
theorem fpuSystemRegisterMoves : Obligations.FpuSystemRegisterMoves := by
  rintro s m _ _ hs hm rfl rfl
  exact ⟨rfl,
    means_of_guardFpu hs rfl rfl (finish_wroteFpscr s _),
    means_of_guardFpu hs rfl rfl (finish_wroteFpul s _),
    loadLong_accesses rfl (guardFpu_of_running _ hs)
      (finish_writeSpecialInc s (s.special_writeSpecial_fpscr _) m _),
    loadLong_accesses rfl (guardFpu_of_running _ hs)
      (finish_writeSpecialInc s (r := .fpul) (s.special_writeSpecial_self _ nofun) m _),
    means_of_guardFpu hs rfl rfl (finish_wroteReg m _ s),
    means_of_guardFpu hs rfl rfl (finish_wroteReg m _ s),
    storeLong_accesses rfl (guardFpu_of_running _ hs) (storeLongDec_stored hm),
    storeLong_accesses rfl (guardFpu_of_running _ hs) (storeLongDec_stored hm)⟩

end Sys2Proof.Machine
end

section
/-! PROOFS. One boundary (60_exceptions section 1, 70_reset_and_hazards): what every boundary does to the inputs, the
counter, the parameters and the FPU module stop; then the boundary by what it comes to: the instruction at PC, an
interrupt request taken or passed over, a reset input; and the entry of TRAPA. -/

namespace Sys2Proof.Machine

/-! ### What a boundary does to the environment -/

/-- The parameters, the inputs to come, the boundary counter and the FPU module stop are as they were. -/
structure SameEnvironment (s t : State) : Prop where
  params : t.params = s.params
  inputs : t.inputs = s.inputs
  tick : t.tick = s.tick
  fpuStopped : t.fpuStopped = s.fpuStopped

/-- One boundary has passed: one input is gone and the counter has moved on. -/
structure PassedBoundary (s t : State) : Prop where
  params : t.params = s.params
  inputs : t.inputs = s.inputs.drop 1
  tick : t.tick = s.tick + 1
  fpuStopped : (∀ kind, s.inputs.head? ≠ some (.reset kind)) → t.fpuStopped = s.fpuStopped

theorem State.beginStep_inputs_drop (s : State) : s.beginStep.inputs = s.inputs.drop 1 := List.drop_one.symm

/-- What keeps the environment from the begin of the boundary on leaves one boundary passed. -/
theorem SameEnvironment.passedBoundary {s t : State} (h : SameEnvironment s.beginStep t) : PassedBoundary s t where
  params := h.params
  inputs := h.inputs.trans s.beginStep_inputs_drop
  tick := h.tick
  fpuStopped _ := h.fpuStopped

theorem SameEnvironment.refl (s : State) : SameEnvironment s s := ⟨rfl, rfl, rfl, rfl⟩

theorem State.scrambleAround_sameEnvironment (s : State) (a : Word) (width : Nat) :
    SameEnvironment s (s.scrambleAround a width) :=
  ⟨by simp, by simp, by simp, by simp⟩

theorem SameEnvironment.entered {s w : State} (h : SameEnvironment s w) (v : BitVec 8) (stackedPc : Word)
    (level : Option (BitVec 4)) : SameEnvironment s (w.entered v stackedPc level) where
  params := (w.entered_params ..).trans h.params
  inputs := (w.entered_inputs ..).trans h.inputs
  tick := (w.entered_tick ..).trans h.tick
  fpuStopped := (w.entered_fpuStopped ..).trans h.fpuStopped

/-- None of the writes an instruction is licensed to is a write of the environment. -/
theorem Effect.sameEnvironment {i : Instr} {s w : State} (h : Effect i s w) : SameEnvironment s w := by
  induction h with
  | refl => exact .refl s
  | byte _ ih => exact ⟨by simp [ih.params], by simp [ih.inputs], by simp [ih.tick], by simp [ih.fpuStopped]⟩
  | special r _ _ _ ih => cases r <;> exact { ih with }
  | _ => rename_i ih; exact { ih with }

theorem Executed.sameEnvironment {i : Instr} {s t : State} (h : Executed i s t) : SameEnvironment s t := by
  obtain ⟨data, _⟩ := h
  exact { data.sameEnvironment with }

theorem leads_sameEnvironment_sleepOrRun (s : State) : Leads (SameEnvironment s) (sleepOrRun exec s) :=
  leads_sleepOrRun (fun _ => .refl s) (fun _ _ _ e => (exec_executed e).sameEnvironment)
    (fun _ => leads_raiseIllegal fun _ _ => (SameEnvironment.refl s).entered ..)
    (fun _ _ => leads_raiseMem (fun _ _ _ => (SameEnvironment.refl s).entered ..)
      (fun _ _ _ _ _ => (s.scrambleAround_sameEnvironment _ _).entered ..))

/-- Settles O15: an interrupt entry, sleep and an instruction keep the environment of the begun boundary, and a reset
input changes only the module stop of it. -/
theorem environmentIsConstant : Obligations.EnvironmentIsConstant := by
  intro s t h
  have passed : PassedBoundary s t := by
    refine (leads_step (fun kind hk => ?_) (fun irq _ _ => ?_) ?_).elim h
    · intro u e
      obtain ⟨pc, sp, rfl⟩ := enterReset_next e
      exact ⟨rfl, s.beginStep_inputs_drop, rfl, fun hn => absurd hk (hn kind)⟩
    · exact leads_enterException fun _ => ((SameEnvironment.refl s.beginStep).entered ..).passedBoundary
    · exact fun u e => ((leads_sameEnvironment_sleepOrRun s.beginStep).elim e).passedBoundary
  exact ⟨passed.params, passed.inputs, passed.tick, passed.fpuStopped⟩

/-! ### The instruction at PC -/

/-- Settles O5: nothing is accepted, the fetch completes, and the code decodes. -/
theorem stepRunsDecoded : Obligations.StepRunsDecoded := by
  intro s i hn hr hp hc hd
  refine ⟨?_, by rw [State.beginStep, List.drop_one]⟩
  rw [step_of_running hn hr, runInstr_of_readable (s := s.beginStep) hp hc]
  simp only [State.beginStep_pc, hd]

/-! ### Acceptance of an interrupt request (R414, R415) -/

theorem State.accepts_eq_true_iff {s : State} {irq : IrqRequest} :
    s.accepts irq = true ↔ s.slot = .none ∧ s.inhibit = false ∧ irqPasses irq s.imask = true := by
  simp [State.accepts, and_assoc]

theorem State.accepts_eq_false_iff {s : State} {irq : IrqRequest} :
    s.accepts irq = false ↔ s.slot ≠ .none ∨ s.inhibit = true ∨ irqPasses irq s.imask = false := by
  rw [← Bool.not_eq_true, State.accepts_eq_true_iff]
  simp only [not_and_or, Bool.not_eq_true, Bool.not_eq_false, ne_eq]

theorem nothingAccepted_of_request {s : State} {irq : IrqRequest} (h : s.inputs.head? = some (.request irq))
    (ha : s.accepts irq = false) : s.NothingAccepted := by
  rwa [State.NothingAccepted, h]

/-- A request that is not accepted is passed over as if nothing had been presented. -/
theorem step_of_not_accepted {s : State} {irq : IrqRequest} (h : s.inputs.head? = some (.request irq))
    (ha : s.accepts irq = false) : step s = step { s with inputs := .quiet :: s.inputs.drop 1 } := by
  have hq : ({ s with inputs := .quiet :: s.inputs.drop 1 } : State).NothingAccepted := trivial
  have hb : ({ s with inputs := .quiet :: s.inputs.drop 1 } : State).beginStep = s.beginStep := by
    simp only [State.beginStep, List.tail_cons, List.drop_one]
  rw [step_of_nothingAccepted (nothingAccepted_of_request h ha), step_of_nothingAccepted hq, hb]

/-- Settles O8: the two clauses are the acceptance condition and its negation, for NMI and for either kind of
level. -/
theorem interruptAcceptance : Obligations.InterruptAcceptance := by
  intro s irq h
  refine ⟨fun hs hi hl => step_of_accepted h (State.accepts_eq_true_iff.2 ⟨hs, hi, ?_⟩),
    fun hn => step_of_not_accepted h
      (State.accepts_eq_false_iff.2 (hn.imp_right fun hn => hn.imp_right fun hl => ?_))⟩
  · cases irq with
    | nmi => rfl
    | userBreak | maskable => exact decide_eq_true hl
  · cases irq with
    | nmi => exact hl.elim
    | userBreak | maskable => exact decide_eq_false (not_lt.2 hl)

/-! ### Interrupt entry (R410, R416) -/

/-- An interrupt entry whose accesses complete takes the exception of the request, with PC stacked and the level of the
request in SR. -/
theorem enterInterrupt_took {s : State} {irq : IrqRequest} (hm : s.mem.wf = true)
    (he : s.EntryReady (irqVector irq s.params)) :
    ∃ t, enterInterrupt irq s = .next t ∧
      TookException (irqVector irq s.params) s.pc (s.setImask (irqLevel irq)).sr s t :=
  enterException_took (level := some (irqLevel irq)) hm he

theorem State.imask_eq_of_sr {s t : State} {level : BitVec 4} (h : t.sr = (s.setImask level).sr) :
    t.imask = level := by
  rw [State.imask, h]
  exact s.imask_setImask level

/-- Settles O9: an accepted request is entered, and I3-I0 are read off the SR that its entry leaves. -/
theorem interruptEntry : Obligations.InterruptEntry := by
  intro s irq h ha hm he
  obtain ⟨t, ht, took⟩ := enterInterrupt_took (s := s.beginStep) hm (he.congr rfl rfl rfl)
  refine ⟨t, (step_of_accepted h ha).trans ht, took, ?_⟩
  rw [State.imask_eq_of_sr took.sr]
  cases irq <;> rfl

/-! ### TRAPA -/

/-- Settles O49: outside a slot TRAPA is the exception entry with its vector and no level. -/
theorem trapEntry : Obligations.TrapEntry := by
  intro s imm hm hs he
  have hx : exec (.trapa imm) s = enterException imm (s.pc + 2) none s := guardSlot_of_none _ hs
  exact means_of_encode rfl (completes_of_exec_eq hx (enterException_took (level := none) hm he))

/-! ### A reset input (R451) -/

@[simp] theorem State.resetRegisters_vbr (s : State) : s.resetRegisters.vbr = 0 := by
  rw [State.resetRegisters]

@[simp] theorem State.resetRegisters_inhibit (s : State) : s.resetRegisters.inhibit = false := by
  rw [State.resetRegisters]

@[simp] theorem State.resetRegisters_fpuStopped (s : State) : s.resetRegisters.fpuStopped = false := by
  rw [State.resetRegisters]

/-- I3-I0 are 15 after a reset input, whatever the free bits of SR are. -/
@[simp] theorem State.resetRegisters_imask (s : State) : s.resetRegisters.imask = 15 := by
  rw [State.imask, State.resetRegisters_sr, BitVec.extractLsb'_or]
  exact BitVec.allOnes_or

/-- The reserved bits of SR are 0 after a reset input: none of them is in `SR_MASK`. -/
theorem State.resetRegisters_sr_reserved (s : State) : s.resetRegisters.sr &&& 0xF000F000 = 0 := by
  rw [State.resetRegisters_sr, BitVec.or_comm]
  exact and_or_and_eq_zero _ (srWriteMask_and_reserved s.params) (by decide)

/-- PC and R15 as the vector table gives them: what a reset input writes after the registers. -/
def State.startAt (s : State) (pc sp : Word) : State := { s.setReg spNum sp with pc := pc }

@[simp] theorem State.startAt_pc (s : State) (pc sp : Word) : (s.startAt pc sp).pc = pc := rfl

@[simp] theorem State.startAt_reg_sp (s : State) (pc sp : Word) : (s.startAt pc sp).reg spNum = sp :=
  s.reg_setReg_self spNum sp

@[simp] theorem State.startAt_sr (s : State) (pc sp : Word) : (s.startAt pc sp).sr = s.sr := rfl

@[simp] theorem State.startAt_vbr (s : State) (pc sp : Word) : (s.startAt pc sp).vbr = s.vbr := rfl

@[simp] theorem State.startAt_fpscr (s : State) (pc sp : Word) : (s.startAt pc sp).fpscr = s.fpscr := rfl

@[simp] theorem State.startAt_mem (s : State) (pc sp : Word) : (s.startAt pc sp).mem = s.mem := rfl

@[simp] theorem State.startAt_slot (s : State) (pc sp : Word) : (s.startAt pc sp).slot = s.slot := rfl

@[simp] theorem State.startAt_inhibit (s : State) (pc sp : Word) : (s.startAt pc sp).inhibit = s.inhibit := rfl

@[simp] theorem State.startAt_proc (s : State) (pc sp : Word) : (s.startAt pc sp).proc = s.proc := rfl

@[simp] theorem State.startAt_fpuStopped (s : State) (pc sp : Word) : (s.startAt pc sp).fpuStopped = s.fpuStopped := rfl

@[simp] theorem State.startAt_imask (s : State) (pc sp : Word) : (s.startAt pc sp).imask = s.imask := rfl

/-- A reset input whose two entries can be read resets the registers and starts at what the entries hold. -/
theorem step_of_reset_readable {s : State} {kind : ResetKind} (h : s.inputs.head? = some (.reset kind))
    (hp : s.Readable 4 ((resetPcEntry s.params kind).setWidth 32 * 4))
    (hs : s.Readable 4 ((resetSpEntry s.params kind).setWidth 32 * 4)) :
    step s = .next (s.beginStep.resetRegisters.startAt
      (s.beginStep.longAt 1 ((resetPcEntry s.params kind).setWidth 32 * 4))
      (s.beginStep.longAt 2 ((resetSpEntry s.params kind).setWidth 32 * 4))) :=
  (step_of_reset h).trans (enterReset_of_readable (s := s.beginStep) hp hs)

/-- Settles O11: PC and R15 are what the table holds, and everything else is as the reset of the registers left it. -/
theorem resetInput : Obligations.ResetInput := by
  intro s kind h hp hs
  refine ⟨_, step_of_reset_readable h hp hs, State.startAt_pc .., State.startAt_reg_sp .., ?_, ?_,
    s.beginStep.resetRegisters_sr_reserved, ?_, ?_, ?_, ?_, ?_, ?_⟩ <;> simp

end Sys2Proof.Machine
end
